-- ==== Sys2Proof/Word.lean ====
section
/-! DEFINITION. The index and word types of the Rosquel 6404: the numbers that name its hosts, sources, lanes,
lines and slots, and the bit vectors the manual treats as bits (bytes, sets of hosts, lane masks, 16-bit words,
time stamps). -/

namespace Sys2Proof

/-- One byte of a frame (R160). -/
abbrev Byte := BitVec 8

/-- A host, and the port it is connected to: H0 to H3. -/
abbrev HostId := Fin 4

/-- An entry of the source table: S0 to S63 (R1). -/
abbrev SourceId := Fin 64

/-- A lane: LANE0 to LANE7 (R39). -/
abbrev LaneId := Fin 8

/-- An input line: IN0 to IN39 (R25). -/
abbrev LineId := Fin 40

/-- A slot of the ticket table: 0 to 31 (R65). -/
abbrev SlotId := Fin 32

/-- A set of hosts: bit `n` stands for `Hn` (R160). -/
abbrev HostSet := BitVec 4

/-- A lane mask: bit `k` stands for `LANEk` (R160). -/
abbrev LaneMask := BitVec 8

/-- A 16-bit word: a ticket number, a handle, an argument, a mailbox word, a record's seq (R160). -/
abbrev Word := BitVec 16

/-- A value of the 32-bit time base, in milliseconds (R157). -/
abbrev Millis := BitVec 32

/-- Whether host `h` is in the set. -/
def hasHost (hs : HostSet) (h : HostId) : Bool := hs.getLsbD h.val

/-- Whether lane `k` is admitted by the mask. -/
def hasLane (m : LaneMask) (k : LaneId) : Bool := m.getLsbD k.val

/-- The four hosts, in order. -/
def allHosts : List HostId := List.finRange 4

/-- The 64 sources, in order. -/
def allSources : List SourceId := List.finRange 64

/-- The eight lanes, in order of priority (R39). -/
def allLanes : List LaneId := List.finRange 8

/-- The 40 input lines, in order. -/
def allLines : List LineId := List.finRange 40

/-- The 32 slots, in order. -/
def allSlots : List SlotId := List.finRange 32

end Sys2Proof
end

