-- ==== Sys2Proof/Config.lean ====
section
/-! DEFINITION. What an implementation of the part fixes, and the free values: the constants the manual names, and
what it leaves open: the order of things that happen together, and bytes put out that it gives no value. -/

namespace Sys2Proof.Config

/-- The `n`-th free value: it settles an order that the manual leaves open, among overflow records stored by one
edge (R13, R144) and among deadlines reached at one moment (R87). Nothing is known of it, so a claim that holds,
holds for every order. DESIGN CHOICE, assumption log 3: a free value. -/
opaque draw : Nat → Nat

/-- The `n`-th free byte: what a port puts out in the rest of a window that neither 0x5A nor 0xC3 opened. R148 gives
that byte no value. DESIGN CHOICE, assumption log 10: a free value. -/
opaque restOut : Nat → Byte

/-- The part code of READ_STATUS (R158). -/
def partCode : Word := 0x6404

/-- The revision of the part the manual describes (R158). -/
def revision : Byte := 1

/-- The idle time of the edit session, in milliseconds: fixed, no record configures it (R126, R127). -/
def idleTime : Nat := 250

/-- The bound on the time from EDIT_COMMIT to its completion, in microseconds: 2 ms (R134). -/
def commitBound : Nat := 2000

/-- The cap of a counted source: pending_count plus covered_count does not exceed it (R12). -/
def countCap : Nat := 15

/-- The cap of a posted ONE-mode source: queue length plus held arguments does not exceed it (R18). -/
def queueCap : Nat := 4

/-- The most records the fault queue holds (R140). -/
def faultCap : Nat := 16

/-- The most entries the staged list holds (R124). -/
def stagedCap : Nat := 16

/-- The most EXTEND requests that move one ticket's deadline (R86). -/
def extendCap : Nat := 15

/-- The largest value of an attempt counter (R4). -/
def attemptsCap : Nat := 7

/-- The largest number of operand bytes a request frame may name (R150). -/
def maxOperands : Nat := 40

end Sys2Proof.Config
end

