-- ==== Sys2Proof/Syntax.lean ====
section
/-! DEFINITION. The commands of the Rosquel 6404: one constructor for each row of spec/opcode_table.json. The
first 21 requests reach the part as good frames on a host's port, and carry the operands of R161 as they stand in
the frame; the other rows are the events the part takes from its arbiter, its deadlines, its pins and its windows. -/

namespace Sys2Proof

/-- The port on which DOWN is deasserted, and whether a window is open on it at that moment (R156). -/
structure Deassertion where
  host : HostId
  windowOpen : Bool
  deriving DecidableEq, Repr

/-- What the end of a reset finds: the first sample of the 40 lines, bit `i` for `INi` (R34), and the ports on which a
window is open at that moment (R159). -/
structure ResetEnd where
  levels : BitVec 40
  openWindows : HostSet
  deriving DecidableEq, Repr

/-- What is clocked in a window: its direction byte, absent where fewer than eight bits were clocked (R148), and the
whole bytes after it. -/
structure Clocked where
  direction : Option Byte
  bytes : List Byte
  deriving DecidableEq, Repr

/-- A window on a port, in which `count` whole bytes are clocked after the direction byte. -/
structure PortWindow where
  host : HostId
  count : Nat
  deriving DecidableEq, Repr

/-- One command. A request names the host whose port carries it (R153). A byte operand is the operand byte of the
frame, in range or not: the owning block judges it. -/
inductive Instr where
  /-- ATTACH (R112): `mask` is the lane mask carried. -/
  | attach (h : HostId) (mask : LaneMask)
  /-- DETACH (R115). -/
  | detach (h : HostId)
  /-- SET_MASK (R46). -/
  | setMask (h : HostId) (mask : LaneMask)
  /-- CLAIM (R55): the good frame is passed on and waits at the arbiter; 0xFF stands for ANY. -/
  | claim (h : HostId) (laneChoice : Byte)
  /-- CLAIM_TAKEN (R57): the arbiter takes the next waiting claim. -/
  | claimTaken
  /-- DONE (R81, R82). -/
  | done (h : HostId) (number : Word)
  /-- DEFER (R84). -/
  | defer (h : HostId) (number : Word)
  /-- EXTEND (R86). -/
  | extend (h : HostId) (number : Word)
  /-- READ_TICKETS (R77). -/
  | readTickets (h : HostId) (firstSlot : Byte)
  /-- READ_SOURCE (R23). -/
  | readSource (h : HostId) (source : Byte)
  /-- READ_STATUS (R158). -/
  | readStatus (h : HostId)
  /-- READ_LINE (R37). -/
  | readLine (h : HostId) (line : Byte)
  /-- POST (R99). -/
  | post (h : HostId) (source : Byte) (argument : Word)
  /-- REARM (R10). -/
  | rearm (h : HostId) (source : Byte)
  /-- FAULT_TAKE (R145). -/
  | faultTake (h : HostId)
  /-- FAULT_PEEK (R146). -/
  | faultPeek (h : HostId)
  /-- EDIT_OPEN (R126). -/
  | editOpen (h : HostId)
  /-- EDIT_STAGE (R129): target kind, target number, and the record's bytes (R161). -/
  | editStage (h : HostId) (kind number : Byte) (record : List Byte)
  /-- EDIT_DROP (R131). -/
  | editDrop (h : HostId) (kind number : Byte)
  /-- EDIT_LIST (R132). -/
  | editList (h : HostId) (firstPosition : Byte)
  /-- EDIT_COMMIT (R134). -/
  | editCommit (h : HostId)
  /-- COMMIT_COMPLETION (R134 to R137). -/
  | commitCompletion
  /-- EDIT_CLOSE (R133). -/
  | editClose (h : HostId)
  /-- IDLE_EXPIRY (R128). -/
  | idleExpiry
  /-- LEASE_EXPIRY (R88) of the ticket in a slot. -/
  | leaseExpiry (slot : SlotId)
  /-- HOST_RELEASE (R117): assertion of the host's DOWN input. -/
  | hostRelease (h : HostId)
  /-- DOWN_DEASSERTION (R123) on a port, with or without a window open on it (R156). -/
  | downDeassertion (d : Deassertion)
  /-- DEVICE_RESET (R159). -/
  | deviceReset
  /-- START_UP_ACCEPTANCE (R34), at the end of a reset (R159). -/
  | startUpAcceptance (found : ResetEnd)
  /-- RAW_CHANGE (R27): a sample of a line, at `level`. -/
  | rawChange (line : LineId) (level : Bool)
  /-- SETTLE_EXPIRY (R31) of a line. -/
  | settleExpiry (line : LineId)
  /-- FRAME_REJECTED (R151): a window opened by 0x5A, the whole bytes clocked after the direction byte, and the
  number of bits clocked after the last whole byte. -/
  | frameRejected (h : HostId) (bytes : List Byte) (strayBits : Nat)
  /-- INCOMPLETE_FRAME (R150): a window in which no request frame is completed, one without a direction byte or with one
  that names no window among them (R148), and the number of bits clocked after its last whole byte. -/
  | incompleteFrame (h : HostId) (window : Clocked) (strayBits : Nat)
  /-- FRAME_WHILE_WORKING (R154): a window opened by 0x5A on a port that is WORKING. -/
  | frameWhileWorking (w : PortWindow)
  /-- ANSWER_READ (R155): a window opened by 0xC3 in which `count` further bytes are clocked out. -/
  | answerRead (h : HostId) (count : Nat)
  deriving DecidableEq, Repr

end Sys2Proof
end

