-- ==== Sys2Proof/Machine/State.lean ====
section
/-! DEFINITION. The state of the Rosquel 6404: every record, table, queue, buffer and output that the manual gives
the part, block by block, the queue of commands that wait, and the part right after a device reset. -/

namespace Sys2Proof.Machine

/-! ## Source table (Chapter 1) -/

/-- The kind of a source, fixed by its number (R1). -/
inductive Kind where
  | watch | posted | notice
  deriving DecidableEq, Repr

/-- The delivery mode of a source (R2). -/
inductive Mode where
  | one | each
  deriving DecidableEq, Repr

/-- The trigger of a watch source (R2, R11). -/
inductive Trigger where
  | rise | fall | both | high | low
  deriving DecidableEq, Repr

/-- The state of a source (R3, section 1.2). -/
inductive SourceState where
  | off | armed | faulted
  deriving DecidableEq, Repr

/-- What an EACH-mode source owes a host (R21). -/
inductive Marker where
  | clear | owed | held | heldOwed
  deriving DecidableEq, Repr

/-- The configuration part of a source record (R2). -/
structure SourceConfig where
  enabled : Bool
  mode : Mode
  lane : LaneId
  rank : Fin 16
  hostSet : HostSet
  handle : Word
  leaseMs : Nat
  retryLimit : Fin 8
  line : LineId
  trigger : Trigger
  posters : HostSet
  echo : Bool
  deriving DecidableEq, Repr

/-- The configuration part after device reset: the Reset column of R2. -/
def SourceConfig.reset : SourceConfig :=
  { enabled := false, mode := .one, lane := 0, rank := 15, hostSet := 0, handle := 0, leaseMs := 0, retryLimit := 0,
    line := 0, trigger := .rise, posters := 0, echo := false }

/-- A source record: the configuration part and the runtime part of R3. For a posted ONE-mode source the pending
count is the length of `argQueue` (R4). -/
structure Source where
  config : SourceConfig
  state : SourceState
  pendingCount : Nat
  overflowMark : Bool
  attempts : Nat
  argQueue : List Word
  mailbox : Word
  marker : Vector Marker 4
  attemptsPerHost : Vector Nat 4
  deriving DecidableEq, Repr

/-- A source record after device reset: the Reset columns of R2 and R3. -/
def Source.reset : Source :=
  { config := SourceConfig.reset, state := .off, pendingCount := 0, overflowMark := false, attempts := 0,
    argQueue := [], mailbox := 0, marker := Vector.replicate 4 .clear, attemptsPerHost := Vector.replicate 4 0 }

/-! ## Line unit (Chapter 2) -/

/-- One input line: the runtime fields of R25 and its line table record (R26). `settling` is yes exactly while
`settleDeadline` is present. Deadlines are points on the line unit's microsecond clock. -/
structure Line where
  rawLevel : Bool
  acceptedLevel : Bool
  settleDeadline : Option Nat
  settleUs : Nat
  deriving DecidableEq, Repr

/-- Whether a raw level different from the accepted one is being timed (R25). -/
def Line.settling (l : Line) : Bool := l.settleDeadline.isSome

/-- A line right after device reset, before its first sample: not settling, settle_us 20 (R26, R34). DESIGN CHOICE,
assumption log 4: both levels read 0 until START_UP_ACCEPTANCE gives the first sample. -/
def Line.reset : Line := { rawLevel := false, acceptedLevel := false, settleDeadline := none, settleUs := 20 }

/-! ## Host table (Chapter 7) -/

/-- What a host record shows of the edit session (R111). -/
inductive EditState where
  | none | session | commit
  deriving DecidableEq, Repr

/-- A host record (R111). -/
structure HostRec where
  attached : Bool
  laneMask : LaneMask
  editState : EditState
  deriving DecidableEq, Repr

/-- A host record after device reset (R111). -/
def HostRec.reset : HostRec := { attached := false, laneMask := 0, editState := .none }

/-! ## Ticket table (Chapter 4) -/

/-- A live ticket's record (R68). -/
structure Ticket where
  number : Word
  host : HostId
  source : SourceId
  lane : LaneId
  handle : Word
  coveredCount : Nat
  argument : Option Word
  attempt : Nat
  issuedMs : Millis
  leaseMs : Nat
  deadlineMs : Option Millis
  extensions : Nat
  deriving DecidableEq, Repr

/-- A slot of the ticket table: its sequence counter, and the live ticket in it, if it is occupied (R65). -/
structure Slot where
  sequence : BitVec 11
  ticket : Option Ticket
  deriving DecidableEq, Repr

/-- A slot after device reset (R65). -/
def Slot.reset : Slot := { sequence := 0, ticket := none }

/-! ## Edit unit (Chapter 8) -/

/-- A staged entry: a target and the complete record for it (R125). -/
inductive StagedEntry where
  | source (n : SourceId) (config : SourceConfig)
  | lane (k : LaneId) (creditLimit : Nat)
  | line (i : LineId) (settleUs : Nat)
  deriving DecidableEq, Repr

/-- The target of a staged entry (R125). -/
inductive Target where
  | source (n : SourceId)
  | lane (k : LaneId)
  | line (i : LineId)
  deriving DecidableEq, Repr

/-- The edit unit (R124). `commitBoundUs` is the model's own: the point on the microsecond clock at which a commit in
flight completes at the latest (R134: 2 ms after EDIT_COMMIT was taken); present exactly while one is in flight
(assumption log 7). -/
structure EditUnit where
  holder : Option HostId
  staged : List StagedEntry
  idleDeadline : Option Millis
  commitInFlight : Bool
  commitBoundUs : Option Nat
  deriving DecidableEq, Repr

/-- The edit unit after device reset (R124). -/
def EditUnit.reset : EditUnit :=
  { holder := none, staged := [], idleDeadline := none, commitInFlight := false, commitBoundUs := none }

/-! ## Fault queue (Chapter 9) -/

/-- What a fault record reports: the kind, with the fields R141 makes present for it. -/
inductive FaultCause where
  /-- A lease expiry brought the attempt count to retry_limit (R91). -/
  | abandoned (source : SourceId) (host : Option HostId) (ticket : Word) (count : Nat)
  /-- A watch source lost an occurrence at its cap (R13). -/
  | overflow (source : SourceId)
  /-- A host was released while it held tickets or the session (R121). -/
  | hostLost (host : HostId) (tickets : Nat) (session : Bool)
  /-- The edit session ended for want of requests (R128). -/
  | editExpired (host : HostId)
  deriving DecidableEq, Repr

/-- A fault record (R141). -/
structure FaultRecord where
  seq : Word
  timeMs : Millis
  cause : FaultCause
  gap : Bool
  deriving DecidableEq, Repr

/-- The fault queue: records oldest first, and the next sequence number (R140). -/
structure FaultQueue where
  records : List FaultRecord
  nextSeq : Word
  deriving DecidableEq, Repr

/-- The fault queue after device reset (R140). -/
def FaultQueue.reset : FaultQueue := { records := [], nextSeq := 1 }

/-! ## Port controllers (Chapter 10) -/

/-- The state of a port (R149). -/
inductive PortState where
  | idle | receiving | working | answered | down
  deriving DecidableEq, Repr

/-- The state a window began in (R149). -/
inductive PriorState where
  | idle | answered
  deriving DecidableEq, Repr

/-- A port controller's record (R149). An empty buffer is the empty list. `ignoring` is yes while the window now open
on the port is ignored to its end: it was open when the port left DOWN, or when a reset ended (R156, R159).
`shiftedOut` is the model's own record of the port's data output: the whole bytes put out in the latest window, the
direction byte's among them (R148, assumption log 10). -/
structure Port where
  state : PortState
  priorState : Option PriorState
  receiveBuffer : List Byte
  answerBuffer : List Byte
  prevUnread : Bool
  refused : Bool
  ignoring : Bool
  shiftedOut : List Byte
  deriving DecidableEq, Repr

/-- A port after device reset, where its DOWN input is not asserted (R149). -/
def Port.reset : Port :=
  { state := .idle, priorState := none, receiveBuffer := [], answerBuffer := [], prevUnread := false,
    refused := false, ignoring := false, shiftedOut := [] }

/-! ## Time (Chapters 2 and 10) -/

/-- The time base (R157) and the line unit's microsecond clock (R25). `usOfMs` is the model's own: the microseconds
gone of the present millisecond (assumption log 6). -/
structure Clock where
  ms : Millis
  us : Nat
  usOfMs : Nat
  deriving DecidableEq, Repr

/-- The clocks after device reset (R157). DESIGN CHOICE, assumption log 11: the microsecond clock starts at 0. -/
def Clock.reset : Clock := { ms := 0, us := 0, usOfMs := 0 }

/-! ## The whole part -/

/-- The state of the part. `sampled` is no from a device reset to its end, while RESETn is low or power-on lasts, and
yes from the first sample on, which is taken when the reset ends (R34, R159). Model's own fields, no state of the
manual's: `drawn` (how many free values have been used) and `pending` (the commands that wait, first in, first
out). -/
structure State where
  sources : Vector Source 64
  lines : Vector Line 40
  sampled : Bool
  lanes : Vector Nat 8
  hosts : Vector HostRec 4
  atn : Vector Bool 4
  waiting : Vector (Option Byte) 4
  rotation : HostId
  slots : Vector Slot 32
  edit : EditUnit
  faults : FaultQueue
  ports : Vector Port 4
  clock : Clock
  drawn : Nat
  pending : List Instr
  deriving DecidableEq, Repr

/-- The part right after a device reset is taken (R159): every block at its reset values, no DOWN input asserted,
RESETn still low and no line sampled yet; the queue of commands empty. START_UP_ACCEPTANCE ends the reset (assumption
log 13). -/
def State.reset : State :=
  { sources := Vector.replicate 64 Source.reset
    lines := Vector.replicate 40 Line.reset
    sampled := false
    lanes := Vector.replicate 8 1
    hosts := Vector.replicate 4 HostRec.reset
    atn := Vector.replicate 4 false
    waiting := Vector.replicate 4 none
    rotation := 3
    slots := Vector.replicate 32 Slot.reset
    edit := EditUnit.reset
    faults := FaultQueue.reset
    ports := Vector.replicate 4 Port.reset
    clock := Clock.reset
    drawn := 0
    pending := [] }

/-- Reasons for the block to stop with a fault: there are none. Every command has an effect by the manual's rules on
every state, and an event that does not arise in a state changes nothing (assumption log 5). -/
inductive Fault where
  deriving DecidableEq, Repr

/-- Reasons for the model to give a command no meaning. -/
inductive Refusal where
  /-- Raised by an arm of `exec` whose command is not modelled yet. Safe: the model stops where the part goes on. -/
  | notModelled (mnemonic : String)
  deriving DecidableEq, Repr

end Sys2Proof.Machine
end

