-- ==== Sys2Proof/Machine/Ops.lean ====
section
/-! DEFINITION. The named operations over the part's records: reading and writing one record of a table, the time,
the ticket table's counts and look-ups, and the free order of things that happen together. -/

namespace Sys2Proof.Machine

/-! ## One record of a table -/

/-- The record of source `i`. -/
def State.source (s : State) (i : SourceId) : Source := s.sources[i]
/-- The record of line `i`. -/
def State.line (s : State) (i : LineId) : Line := s.lines[i]
/-- The credit_limit of lane `k` (R39). -/
def State.creditLimit (s : State) (k : LaneId) : Nat := s.lanes[k]
/-- The record of host `h`. -/
def State.host (s : State) (h : HostId) : HostRec := s.hosts[h]
/-- The level of host `h`'s ATN output (R49). -/
def State.atnOf (s : State) (h : HostId) : Bool := s.atn[h]
/-- The lane_choice of host `h`'s claim, while it waits at the arbiter (R57). -/
def State.waitingClaim (s : State) (h : HostId) : Option Byte := s.waiting[h]
/-- Slot `k` of the ticket table. -/
def State.slot (s : State) (k : SlotId) : Slot := s.slots[k]
/-- The port controller of host `h`. -/
def State.port (s : State) (h : HostId) : Port := s.ports[h]

def State.setSource (s : State) (i : SourceId) (r : Source) : State := { s with sources := s.sources.set i r }
def State.setLine (s : State) (i : LineId) (l : Line) : State := { s with lines := s.lines.set i l }
def State.setCreditLimit (s : State) (k : LaneId) (n : Nat) : State := { s with lanes := s.lanes.set k n }
def State.setHost (s : State) (h : HostId) (r : HostRec) : State := { s with hosts := s.hosts.set h r }
def State.setAtn (s : State) (v : Vector Bool 4) : State := { s with atn := v }
def State.setWaiting (s : State) (h : HostId) (c : Option Byte) : State := { s with waiting := s.waiting.set h c }
def State.setRotation (s : State) (h : HostId) : State := { s with rotation := h }
def State.setSlot (s : State) (k : SlotId) (x : Slot) : State := { s with slots := s.slots.set k x }
def State.setEdit (s : State) (e : EditUnit) : State := { s with edit := e }
def State.setFaults (s : State) (q : FaultQueue) : State := { s with faults := q }
def State.setPort (s : State) (h : HostId) (p : Port) : State := { s with ports := s.ports.set h p }
def State.setClock (s : State) (c : Clock) : State := { s with clock := c }
def State.setSampled (s : State) (b : Bool) : State := { s with sampled := b }
def State.setDrawn (s : State) (n : Nat) : State := { s with drawn := n }
def State.setPending (s : State) (q : List Instr) : State := { s with pending := q }

/-- Every source record changed by a function of its number and the record. -/
def State.mapSources (s : State) (f : SourceId → Source → Source) : State :=
  { s with sources := Vector.ofFn fun i => f i (s.source i) }
/-- Every line record changed by a function of its number and the record. -/
def State.mapLines (s : State) (f : LineId → Line → Line) : State :=
  { s with lines := Vector.ofFn fun i => f i (s.line i) }
/-- Every port record changed by a function of its host and the record. -/
def State.mapPorts (s : State) (f : HostId → Port → Port) : State :=
  { s with ports := Vector.ofFn fun h => f h (s.port h) }

/-! ## Hosts and markers -/

/-- Whether host `h` is attached. -/
def State.attached (s : State) (h : HostId) : Bool := (s.host h).attached

/-- marker[h] of a source record. -/
def Source.markerOf (r : Source) (h : HostId) : Marker := r.marker[h]

/-- attempts[h] of a source record. -/
def Source.attemptsOf (r : Source) (h : HostId) : Nat := r.attemptsPerHost[h]

/-- The record with marker[h] changed. -/
def Source.setMarker (r : Source) (h : HostId) (m : Marker) : Source := { r with marker := r.marker.set h m }

/-- The record with attempts[h] changed. -/
def Source.setAttemptsOf (r : Source) (h : HostId) (n : Nat) : Source :=
  { r with attemptsPerHost := r.attemptsPerHost.set h n }

/-- The record with every marker changed by a function of the host and the marker. -/
def Source.mapMarkers (r : Source) (f : HostId → Marker → Marker) : Source :=
  { r with marker := Vector.ofFn fun h => f h (r.markerOf h) }

/-- The record with attempts and every attempts[h] at 0 (R6, R7, R9, R10). -/
def Source.clearAttempts (r : Source) : Source :=
  { r with attempts := 0, attemptsPerHost := Vector.replicate 4 0 }

/-- A marker after an occurrence marks its host (R14). -/
def Marker.mark : Marker → Marker
  | .clear => .owed
  | .owed => .owed
  | .held => .heldOwed
  | .heldOwed => .heldOwed

/-- A marker after the source discards its waiting work: what is owed goes, what is held stays (R7, R8, R9). -/
def Marker.dropOwed : Marker → Marker
  | .clear => .clear
  | .owed => .clear
  | .held => .held
  | .heldOwed => .held

/-- A marker after its host completes its ticket (R81). -/
def Marker.complete : Marker → Marker
  | .held => .clear
  | .heldOwed => .owed
  | m => m

/-- Whether the marker says that its host holds a ticket of the source (R21). -/
def Marker.isHeld : Marker → Bool
  | .held => true
  | .heldOwed => true
  | _ => false

/-! ## Kinds and pending work -/

/-- The kind of a source, by its number (R1). -/
def kindOf (i : SourceId) : Kind :=
  if i.val < 48 then .watch else if i.val < 63 then .posted else .notice

/-- The source the fault queue's notices go to: S63 (R20). -/
def noticeSource : SourceId := 63

/-- The pending count of a ONE-mode source: for a posted source, the length of arg_queue (R4). -/
def pendingOf (i : SourceId) (r : Source) : Nat :=
  if kindOf i = .posted then r.argQueue.length else r.pendingCount

/-! ## The ticket table -/

/-- The live tickets, in slot order (R65). -/
def State.liveTickets (s : State) : List Ticket := allSlots.filterMap fun k => (s.slot k).ticket

/-- The live ticket count: the number of occupied slots (R65). -/
def State.liveTotal (s : State) : Nat := s.liveTickets.length

/-- live_count(h, k): live tickets of host `h` whose own lane field is `k` (R41). -/
def State.liveCount (s : State) (h : HostId) (k : LaneId) : Nat :=
  s.liveTickets.countP fun t => t.host == h && t.lane == k

/-- The live tickets of host `h`, in slot order. -/
def State.ticketsOf (s : State) (h : HostId) : List Ticket := s.liveTickets.filter fun t => t.host == h

/-- The live ticket of source `i`, the lowest slot's where an EACH-mode source has several. -/
def State.sourceTicket (s : State) (i : SourceId) : Option Ticket := s.liveTickets.find? fun t => t.source == i

/-- Whether host `h` holds a live ticket of source `i`. -/
def State.holds (s : State) (i : SourceId) (h : HostId) : Bool :=
  s.liveTickets.any fun t => t.source == i && t.host == h

/-- The occurrences covered by the live ticket of source `i`; 0 where it has none (R12). -/
def State.coveredBy (s : State) (i : SourceId) : Nat :=
  match s.sourceTicket i with
  | some t => t.coveredCount
  | none => 0

/-- The arguments held by live tickets of source `i` (R18). -/
def State.heldArguments (s : State) (i : SourceId) : Nat :=
  s.liveTickets.countP fun t => t.source == i && t.argument.isSome

/-- The free slot with the lowest number (R67). -/
def State.lowestFree (s : State) : Option SlotId := allSlots.find? fun k => (s.slot k).ticket.isNone

/-- The slot named by the low five bits of a ticket number (R66). -/
def slotOf (number : Word) : SlotId := (number.extractLsb' 0 5).toFin

/-- The sequence part of a ticket number: its upper eleven bits (R66). -/
def sequenceOf (number : Word) : BitVec 11 := number.extractLsb' 5 11

/-- The number of a ticket from its sequence and its slot (R66). -/
def ticketNumber (sequence : BitVec 11) (k : SlotId) : Word := sequence ++ BitVec.ofNat 5 k.val

/-- The sequence counter after one more issue: 2047 goes back to 1, and 0 is never given (R66). -/
def advanceSequence (n : BitVec 11) : BitVec 11 := if n = 2047 then 1 else n + 1

/-- The live ticket a number names, by the test of R66. -/
def State.findLive (s : State) (number : Word) : Option Ticket :=
  match (s.slot (slotOf number)).ticket with
  | some t => if sequenceOf number ≠ 0 ∧ sequenceOf t.number = sequenceOf number then some t else none
  | none => none

/-- Slot `k` freed: it keeps its sequence counter (R80). -/
def freeSlot (k : SlotId) (s : State) : State := s.setSlot k { s.slot k with ticket := none }

/-! ## Time -/

/-- The time base: "now" (R157). -/
def State.now (s : State) : Millis := s.clock.ms

/-- Whether the time base has reached a deadline: the present or a moment before it, on the wrapping count (R87).
DEDUCED, assumption log 9. -/
def reachedMs (now deadline : Millis) : Bool := (now - deadline).msb == false

/-- Milliseconds from now to a deadline, modulo the wrap; 0 once it is reached (R78). -/
def msUntil (now deadline : Millis) : Nat := if reachedMs now deadline then 0 else (deadline - now).toNat

/-- A moment `n` milliseconds from now, modulo 2^32 (R75). -/
def msAfter (now : Millis) (n : Nat) : Millis := now + BitVec.ofNat 32 n

/-! ## The order of things that happen together -/

/-- `x` put into a list at position `n`, or at its end where the list is shorter. -/
def insertAt {α : Type} (n : Nat) (x : α) : List α → List α
  | [] => [x]
  | y :: ys => match n with
    | 0 => x :: y :: ys
    | m + 1 => y :: insertAt m x ys

/-- The list in a free order: each element goes to a place that a free value gives. Every order of the list is the
result for some free values, and nothing is known of them. Assumption log 3. -/
def freeOrder {α : Type} (first : Nat) : List α → List α
  | [] => []
  | x :: xs => insertAt (Config.draw first % (xs.length + 1)) x (freeOrder (first + 1) xs)

end Sys2Proof.Machine
end

