-- ==== Sys2Proof/Machine/Reset.lean ====
section
/-! DEFINITION. Device reset (R159). Its end is START_UP_ACCEPTANCE (R34, `Machine/LineUnit.lean`). -/

namespace Sys2Proof.Machine

/-- A port after device reset: DOWN where its DOWN input is asserted, else IDLE (R149, R123). -/
def Port.afterReset (p : Port) : Port := if p.state = .down then { Port.reset with state := .down } else Port.reset

/-- The part in a device reset: every block at its reset values, no line sampled, no window taken (R159), until
START_UP_ACCEPTANCE ends the reset. The commands that wait outside, and the
count of free values used, are no state of the part and stay. DESIGN CHOICE, assumption log 13. -/
def deviceReset (s : State) : State :=
  { State.reset with
    ports := Vector.ofFn fun h => (s.port h).afterReset
    drawn := s.drawn
    pending := s.pending }

def execDeviceReset (s : State) : Host.Outcome State Fault Refusal := .next (deviceReset s)

end Sys2Proof.Machine
end

