-- ==== Sys2Proof/Machine/Flags.lean ====
section
/-! DEFINITION. What the part computes of its state and shows: credit (R42), deliverability (R47), the ATN outputs
(R49) and the flags byte of an answer (R162). -/

namespace Sys2Proof.Machine

/-- Host `h` has credit in lane `k` (R42). -/
def hasCredit (s : State) (h : HostId) (k : LaneId) : Bool := s.liveCount h k < s.creditLimit k

/-- Condition 6 of R47: work waits for `h`. -/
def workWaits (s : State) (i : SourceId) (h : HostId) : Bool :=
  let r := s.source i
  match r.config.mode with
  | .one => pendingOf i r > 0 && (s.sourceTicket i).isNone
  | .each => r.markerOf h == .owed

/-- Source `i` is deliverable to host `h`: the six conditions of R47. -/
def deliverable (s : State) (i : SourceId) (h : HostId) : Bool :=
  let r := s.source i
  r.state == .armed && s.attached h && hasHost r.config.hostSet h && hasLane (s.host h).laneMask r.config.lane
    && workWaits s i h && hasCredit s h r.config.lane

/-- The level ATN(h) has by R49: attached, fewer than 32 live tickets, some source deliverable. -/
def atnLevel (s : State) (h : HostId) : Bool :=
  s.attached h && s.liveTotal < 32 && allSources.any fun i => deliverable s i h

/-- The host table recomputes every ATN output (R49). -/
def recomputeAtn (s : State) : State := s.setAtn (Vector.ofFn fun h => atnLevel s h)

/-- A flags byte: ATN in bit 0, ATTACHED in bit 1, PREV_UNREAD in bit 2, REFUSED_WHILE_WORKING in bit 3 (R162). -/
def flagsByte (atn attached prevUnread refused : Bool) : Byte :=
  0#4 ++ BitVec.ofBool refused ++ BitVec.ofBool prevUnread ++ BitVec.ofBool attached ++ BitVec.ofBool atn

/-- The flags byte of an answer formed now for host `h` (R153). -/
def answerFlags (s : State) (h : HostId) : Byte :=
  flagsByte (s.atnOf h) (s.attached h) (s.port h).prevUnread (s.port h).refused

/-- The flags byte of a short answer taken now: bits 2 and 3 are 0 (R155, R162). -/
def shortFlags (s : State) (h : HostId) : Byte := flagsByte (s.atnOf h) (s.attached h) false false

end Sys2Proof.Machine
end

