-- ==== Sys2Proof/Decode.lean ====
section
/-! DEFINITION. From bits to commands: the check byte (R152), the request codes and lengths (R161), the judging of
a request frame (R150, R151), the command a good frame spells and the frame that spells a request; and
`decodeTableWord`, which the host asks with. -/

namespace Sys2Proof

/-- A 16-bit value as it is sent: most significant byte first (R160). -/
def wordBytes (w : Word) : List Byte := [w.extractLsb' 8 8, w.extractLsb' 0 8]

/-- A time base value as it is sent: four bytes, most significant first (R160). -/
def millisBytes (w : Millis) : List Byte :=
  [w.extractLsb' 24 8, w.extractLsb' 16 8, w.extractLsb' 8 8, w.extractLsb' 0 8]

/-- The 16-bit value of two bytes, the first the more significant (R160). -/
def wordOf (hi lo : Byte) : Word := hi ++ lo

/-! ## The check byte (R152) -/

/-- One shift of the CRC register: to the left, combined with 0x07 when the bit shifted out was 1 (R152). -/
def crcShift (r : Byte) : Byte := if r.msb then (r <<< 1) ^^^ 0x07 else r <<< 1

/-- The register after one more byte: combined by exclusive-or, then shifted eight times (R152). -/
def crcByte (r b : Byte) : Byte := Nat.iterate crcShift 8 (r ^^^ b)

/-- The CRC-8 of a run of bytes, from initial value 0 (R152). -/
def crc8 (bs : List Byte) : Byte := bs.foldl crcByte 0

/-! ## Request codes and operand lengths (R161) -/

/-- The operand lengths that EDIT_STAGE admits, by the target kind byte: 11 for SOURCE, 3 for LANE, 4 for LINE, and
any of the three where the byte names no kind (R161). -/
def stageLengthAllowed (operands : List Byte) : Bool :=
  match operands with
  | [] => false
  | kind :: _ =>
    if kind = 0 then operands.length == 11
    else if kind = 1 then operands.length == 3
    else if kind = 2 then operands.length == 4
    else operands.length == 3 || operands.length == 4 || operands.length == 11

/-- Whether the operands have a length that R161 admits for the code; `none` where the code names no request. -/
def lengthAllowed (code : Byte) (operands : List Byte) : Option Bool :=
  if code = 0x61 then some (stageLengthAllowed operands)
  else if code ∈ [0x11, 0x31, 0x50, 0x51, 0x60, 0x64, 0x65] then some (operands.length == 0)
  else if code ∈ [0x10, 0x12, 0x20, 0x30, 0x32, 0x33, 0x41, 0x63] then some (operands.length == 1)
  else if code ∈ [0x21, 0x22, 0x23, 0x62] then some (operands.length == 2)
  else if code = 0x40 then some (operands.length == 3)
  else none

/-! ## Direction bytes (R148) -/

/-- The direction byte that opens a request window. -/
def requestDirection : Byte := 0x5A

/-- The direction byte that opens an answer read. -/
def answerDirection : Byte := 0xC3

/-! ## Judging a frame (R150, R151) -/

/-- What the port controller makes of the bytes clocked in a request window, when chip select is released. -/
inductive FrameVerdict where
  /-- Fewer bytes than a complete frame (R150). -/
  | incomplete
  /-- A check of R151 failed and the answer is BADFRAME. -/
  | badFrame
  /-- Check 4 of R151 failed and the answer is UNKNOWN. -/
  | unknown
  /-- A good frame: its code and operand bytes (R151, R153). -/
  | good (code : Byte) (operands : List Byte)
  deriving DecidableEq, Repr

/-- The bytes of a window that the receive buffer keeps: a frame whose length byte is above 40 keeps none beyond the
length byte (R150). Of a frame with more bytes than its complete length, R150 does not say which bytes the buffer of
R149, 43 bytes at most, keeps. DESIGN CHOICE, assumption log 21: none beyond the complete length. -/
def keptBytes (bytes : List Byte) : List Byte :=
  match bytes with
  | code :: len :: rest =>
    if len.toNat > Config.maxOperands then [code, len] else code :: len :: rest.take (len.toNat + 1)
  | short => short

/-- The checks 3 to 5 of R151 on a complete frame: check byte, code, operand length. -/
def judgeComplete (code len : Byte) (operands : List Byte) (check : Byte) : FrameVerdict :=
  if check ≠ crc8 (code :: len :: operands) then .badFrame
  else match lengthAllowed code operands with
    | none => .unknown
    | some false => .badFrame
    | some true => .good code operands

/-- The verdict on a window: the whole bytes clocked after the direction byte, and the bits clocked after the last of
them (R150, R151; checks 1 and 2 stand before the others). -/
def judgeFrame (bytes : List Byte) (strayBits : Nat) : FrameVerdict :=
  match bytes with
  | code :: len :: rest =>
    if len.toNat > Config.maxOperands then .badFrame
    else if rest.length < len.toNat + 1 then .incomplete
    else if rest.length > len.toNat + 1 ∨ strayBits > 0 then .badFrame
    else judgeComplete code len (rest.take len.toNat) ((rest.drop len.toNat).headD 0)
  | _ => .incomplete

/-! ## Frames and commands (R161) -/

/-- The command that a good frame on host `h`'s port spells (R153, R161). -/
def decodeRequest (h : HostId) (code : Byte) (operands : List Byte) : Option Instr :=
  if code = 0x10 then match operands with | [m] => some (.attach h m) | _ => none
  else if code = 0x11 then match operands with | [] => some (.detach h) | _ => none
  else if code = 0x12 then match operands with | [m] => some (.setMask h m) | _ => none
  else if code = 0x20 then match operands with | [c] => some (.claim h c) | _ => none
  else if code = 0x21 then match operands with | [a, b] => some (.done h (wordOf a b)) | _ => none
  else if code = 0x22 then match operands with | [a, b] => some (.defer h (wordOf a b)) | _ => none
  else if code = 0x23 then match operands with | [a, b] => some (.extend h (wordOf a b)) | _ => none
  else if code = 0x30 then match operands with | [n] => some (.readSource h n) | _ => none
  else if code = 0x31 then match operands with | [] => some (.readStatus h) | _ => none
  else if code = 0x32 then match operands with | [n] => some (.readLine h n) | _ => none
  else if code = 0x33 then match operands with | [n] => some (.readTickets h n) | _ => none
  else if code = 0x40 then match operands with | [n, a, b] => some (.post h n (wordOf a b)) | _ => none
  else if code = 0x41 then match operands with | [n] => some (.rearm h n) | _ => none
  else if code = 0x50 then match operands with | [] => some (.faultTake h) | _ => none
  else if code = 0x51 then match operands with | [] => some (.faultPeek h) | _ => none
  else if code = 0x60 then match operands with | [] => some (.editOpen h) | _ => none
  else if code = 0x61 then match operands with | k :: n :: r => some (.editStage h k n r) | _ => none
  else if code = 0x62 then match operands with | [k, n] => some (.editDrop h k n) | _ => none
  else if code = 0x63 then match operands with | [p] => some (.editList h p) | _ => none
  else if code = 0x64 then match operands with | [] => some (.editCommit h) | _ => none
  else if code = 0x65 then match operands with | [] => some (.editClose h) | _ => none
  else none

/-- A request as its frame holds it: the host whose port carries it, the code byte and the operand bytes (R161).
`none` for a command that is no request. -/
def requestParts (i : Instr) : Option (HostId × Byte × List Byte) :=
  match i with
  | .attach h m => some (h, 0x10, [m])
  | .detach h => some (h, 0x11, [])
  | .setMask h m => some (h, 0x12, [m])
  | .claim h c => some (h, 0x20, [c])
  | .claimTaken => none
  | .done h n => some (h, 0x21, wordBytes n)
  | .defer h n => some (h, 0x22, wordBytes n)
  | .extend h n => some (h, 0x23, wordBytes n)
  | .readTickets h n => some (h, 0x33, [n])
  | .readSource h n => some (h, 0x30, [n])
  | .readStatus h => some (h, 0x31, [])
  | .readLine h n => some (h, 0x32, [n])
  | .post h n a => some (h, 0x40, n :: wordBytes a)
  | .rearm h n => some (h, 0x41, [n])
  | .faultTake h => some (h, 0x50, [])
  | .faultPeek h => some (h, 0x51, [])
  | .editOpen h => some (h, 0x60, [])
  | .editStage h k n r => some (h, 0x61, k :: n :: r)
  | .editDrop h k n => some (h, 0x62, [k, n])
  | .editList h p => some (h, 0x63, [p])
  | .editCommit h => some (h, 0x64, [])
  | .commitCompletion => none
  | .editClose h => some (h, 0x65, [])
  | .idleExpiry => none
  | .leaseExpiry _ => none
  | .hostRelease _ => none
  | .downDeassertion _ => none
  | .deviceReset => none
  | .startUpAcceptance _ => none
  | .rawChange _ _ => none
  | .settleExpiry _ => none
  | .frameRejected _ _ _ => none
  | .incompleteFrame _ _ _ => none
  | .frameWhileWorking _ => none
  | .answerRead _ _ => none

/-- The request frame of a code and its operands: code byte, length byte, operands, check byte (R161). -/
def requestFrame (code : Byte) (operands : List Byte) : List Byte :=
  let covered := code :: BitVec.ofNat 8 operands.length :: operands
  covered ++ [crc8 covered]

/-! ## The host's question -/

/-- The command a table word spells. spec/opcode_table.json gives no row any bits (every row's list of fields is
empty), so no word spells a command; requests are spelled by frames (`decodeRequest`). Assumption log 2. -/
def decodeTableWord (_nbits _w : Nat) : Option Instr := none

end Sys2Proof
end

