-- ==== Sys2Proof/Machine/Operands.lean ====
section
/-! DEFINITION. How values are carried in bytes: the codes of R160, the source configuration block of R161 both ways,
the targets and records of EDIT_STAGE, the statuses of R162 and the data of R163 and R164. -/

namespace Sys2Proof.Machine

/-! ## Codes (R160) -/

/-- A number of one byte. -/
def byteOf (n : Nat) : Byte := BitVec.ofNat 8 n

/-- A number of two bytes. -/
def wordOfNat (n : Nat) : List Byte := wordBytes (BitVec.ofNat 16 n)

/-- yes or set is 1, no or clear is 0. -/
def boolByte (b : Bool) : Byte := if b then 1 else 0

def hostSetByte (hs : HostSet) : Byte := 0#4 ++ hs

def Mode.code : Mode → BitVec 1
  | .one => 0
  | .each => 1

def Trigger.code : Trigger → BitVec 3
  | .rise => 0
  | .fall => 1
  | .both => 2
  | .high => 3
  | .low => 4

/-- The trigger a code names; 5, 6 and 7 name none (R161). -/
def triggerOf (c : BitVec 3) : Option Trigger :=
  if c = 0 then some .rise
  else if c = 1 then some .fall
  else if c = 2 then some .both
  else if c = 3 then some .high
  else if c = 4 then some .low
  else none

def SourceState.code : SourceState → Byte
  | .off => 0
  | .armed => 1
  | .faulted => 2

def Kind.code : Kind → Byte
  | .watch => 0
  | .posted => 1
  | .notice => 2

def Marker.code : Marker → Byte
  | .clear => 0
  | .owed => 1
  | .held => 2
  | .heldOwed => 3

/-- What a DONE or DEFER answer says became of the work (R82, R84). -/
inductive Disposition where
  | consumed | returned | discarded
  deriving DecidableEq, Repr

def Disposition.code : Disposition → Byte
  | .consumed => 0
  | .returned => 1
  | .discarded => 2

/-! ## Answers (R162) -/

/-- The statuses of an answer (R162). -/
inductive Status where
  | ok | none | full | busy | denied | stale | badValue | badFrame | unknown | notAttached | noSession | wrongState
  | conflict | wait | empty
  deriving DecidableEq, Repr

def Status.code : Status → Byte
  | .ok => 0x00
  | .none => 0x01
  | .full => 0x02
  | .busy => 0x03
  | .denied => 0x04
  | .stale => 0x05
  | .badValue => 0x06
  | .badFrame => 0x07
  | .unknown => 0x08
  | .notAttached => 0x09
  | .noSession => 0x0A
  | .wrongState => 0x0B
  | .conflict => 0x0C
  | .wait => 0x0D
  | .empty => 0x0E

/-- What an owning block answers: a status, and data for OK and CONFLICT (R162). -/
structure Answer where
  status : Status
  data : List Byte
  deriving DecidableEq, Repr

/-- An answer that carries no data beyond the status and the flags byte. -/
def Answer.bare (st : Status) : Answer := { status := st, data := [] }

/-- An OK answer with its data. -/
def Answer.okWith (data : List Byte) : Answer := { status := .ok, data := data }

/-- The answer frame: status, flags, length, data and the check byte over them (R152, R162). -/
def answerFrame (a : Answer) (flags : Byte) : List Byte :=
  let covered := a.status.code :: flags :: byteOf a.data.length :: a.data
  covered ++ [crc8 covered]

/-- A short answer: status and flags alone, no length and no check byte (R155). -/
def shortAnswer (st : Status) (flags : Byte) : List Byte := [st.code, flags]

/-! ## The source configuration block (R161) -/

/-- The nine bytes that carry a source's configuration part (R161). -/
def sourceBlock (c : SourceConfig) : List Byte :=
  [ 0#5 ++ BitVec.ofBool c.echo ++ c.mode.code ++ BitVec.ofBool c.enabled
  , 0#1 ++ BitVec.ofNat 3 c.lane.val ++ BitVec.ofNat 4 c.rank.val
  , c.posters ++ c.hostSet ]
  ++ wordBytes c.handle ++ wordOfNat c.leaseMs ++
  [ 0#1 ++ BitVec.ofNat 3 c.retryLimit.val ++ 0#1 ++ c.trigger.code
  , byteOf c.line.val ]

/-- The configuration that nine bytes carry, where every code names a value of its field and every bit that R161
fixes at 0 is 0; otherwise the record is refused BADVALUE (R160). -/
def parseSourceBlock (bytes : List Byte) : Option SourceConfig :=
  match bytes with
  | [b0, b1, b2, h1, h0, l1, l0, b7, b8] =>
    if b0.extractLsb' 3 5 = 0 ∧ b1.getLsbD 7 = false ∧ b7.getLsbD 7 = false ∧ b7.getLsbD 3 = false then
      match triggerOf (b7.extractLsb' 0 3) with
      | none => none
      | some trigger =>
        if hl : b8.toNat < 40 then
          some
            { enabled := b0.getLsbD 0
              mode := if b0.getLsbD 1 then .each else .one
              lane := (b1.extractLsb' 4 3).toFin
              rank := (b1.extractLsb' 0 4).toFin
              hostSet := b2.extractLsb' 0 4
              handle := wordOf h1 h0
              leaseMs := (wordOf l1 l0).toNat
              retryLimit := (b7.extractLsb' 4 3).toFin
              line := ⟨b8.toNat, hl⟩
              trigger := trigger
              posters := b2.extractLsb' 4 4
              echo := b0.getLsbD 2 }
        else none
    else none
  | _ => none

/-! ## Targets and staged records (R125, R129) -/

/-- The target that a kind byte and a number byte name; `none` where either is out of range (R125, R160). -/
def parseTarget (kind number : Byte) : Option Target :=
  if kind = 0 then if h : number.toNat < 64 then some (.source ⟨number.toNat, h⟩) else none
  else if kind = 1 then if h : number.toNat < 8 then some (.lane ⟨number.toNat, h⟩) else none
  else if kind = 2 then if h : number.toNat < 40 then some (.line ⟨number.toNat, h⟩) else none
  else none

/-- The target of a staged entry. -/
def StagedEntry.target : StagedEntry → Target
  | .source n _ => .source n
  | .lane k _ => .lane k
  | .line i _ => .line i

/-- The validation table of R129 for a SOURCE record. -/
def validSource (n : SourceId) (c : SourceConfig) : Bool :=
  (!c.enabled || c.hostSet != 0) && c.leaseMs ≤ 60000 &&
  (kindOf n == .watch || (c.line == 0 && c.trigger == .rise)) &&
  (kindOf n == .posted || (c.posters == 0 && c.echo == false))

/-- The validation of R129 for a LANE record. -/
def validCredit (limit : Nat) : Bool := 1 ≤ limit && limit ≤ 4

/-- The validation of R129 for a LINE record (R26). -/
def validSettle (us : Nat) : Bool := us ≤ 1020 && us % 4 == 0

/-- The entry that a record's bytes give for a target, if it passes the validation of R129. -/
def parseRecord (t : Target) (record : List Byte) : Option StagedEntry :=
  match t with
  | .source n =>
    match parseSourceBlock record with
    | some c => if validSource n c then some (.source n c) else none
    | none => none
  | .lane k =>
    match record with
    | [b] => if validCredit b.toNat then some (.lane k b.toNat) else none
    | _ => none
  | .line i =>
    match record with
    | [b1, b0] => if validSettle (wordOf b1 b0).toNat then some (.line i (wordOf b1 b0).toNat) else none
    | _ => none

/-- A target's kind and number bytes (R160, R163). -/
def Target.bytes : Target → List Byte
  | .source n => [0, byteOf n.val]
  | .lane k => [1, byteOf k.val]
  | .line i => [2, byteOf i.val]

/-- A staged entry as EDIT_LIST carries it: target kind, target number and record (R163). -/
def StagedEntry.bytes (e : StagedEntry) : List Byte :=
  e.target.bytes ++
  match e with
  | .source _ c => sourceBlock c
  | .lane _ limit => [byteOf limit]
  | .line _ us => wordOfNat us

/-! ## Answer data (R163, R164) -/

/-- The data of a CLAIM answer (R76, R163). -/
def claimData (t : Ticket) : List Byte :=
  wordBytes t.number ++ [byteOf t.source.val] ++ wordBytes t.handle ++
  [byteOf t.lane.val, byteOf t.coveredCount, byteOf t.attempt] ++ wordOfNat t.leaseMs ++
  (match t.argument with | some a => wordBytes a | none => [])

/-- One entry of a READ_TICKETS answer, as requester `h` sees it at time `now` (R78, R163). -/
def ticketEntry (now : Millis) (h : HostId) (t : Ticket) : List Byte :=
  wordBytes t.number ++
  [0#2 ++ BitVec.ofNat 2 t.host.val ++ 0#1 ++ BitVec.ofNat 3 t.lane.val, byteOf t.source.val] ++
  wordBytes t.handle ++ [byteOf t.coveredCount, BitVec.ofNat 4 t.attempt ++ BitVec.ofNat 4 t.extensions] ++
  millisBytes t.issuedMs ++ wordOfNat t.leaseMs ++
  (match t.deadlineMs with | some d => wordOfNat (msUntil now d) | none => []) ++
  (match t.argument with | some a => if t.host = h then wordBytes a else [] | none => [])

/-- The runtime bytes of a READ_SOURCE answer (R24, R163). -/
def runtimeBytes (i : SourceId) (r : Source) (live : Option Ticket) : List Byte :=
  let ticketBytes := match live with | some t => wordBytes t.number | none => []
  let markers := allHosts.map fun h => (r.markerOf h).code
  let attempts := allHosts.map fun h => byteOf (r.attemptsOf h)
  match r.config.mode with
  | .one =>
    if kindOf i = .posted then
      [byteOf r.attempts, byteOf r.argQueue.length] ++ r.argQueue.flatMap wordBytes ++ ticketBytes
    else [byteOf r.pendingCount, boolByte r.overflowMark, byteOf r.attempts] ++ ticketBytes
  | .each => if kindOf i = .posted then wordBytes r.mailbox ++ markers ++ attempts else markers ++ attempts

/-- The data of a READ_SOURCE answer (R24, R163). -/
def sourceData (i : SourceId) (r : Source) (live : Option Ticket) : List Byte :=
  [byteOf i.val, (kindOf i).code, r.state.code] ++ sourceBlock r.config ++ runtimeBytes i r live

/-- The data of a READ_LINE answer at microsecond `us` (R37, R163). -/
def lineData (us : Nat) (i : LineId) (l : Line) : List Byte :=
  [byteOf i.val, boolByte l.rawLevel, boolByte l.acceptedLevel, boolByte l.settling] ++ wordOfNat l.settleUs ++
  (match l.settleDeadline with | some d => wordOfNat (d - us) | none => [])

/-- The code of edit_holder of READ_STATUS (R160). -/
def holderByte : Option HostId → Byte
  | some h => byteOf h.val
  | none => 0xFF

/-- The set of attached hosts (R158). -/
def attachedSet (s : State) : HostSet :=
  BitVec.ofBool (s.attached 3) ++ BitVec.ofBool (s.attached 2) ++ BitVec.ofBool (s.attached 1) ++
  BitVec.ofBool (s.attached 0)

/-- The data of a READ_STATUS answer (R158, R163). -/
def statusData (s : State) : List Byte :=
  wordBytes Config.partCode ++ [Config.revision] ++ millisBytes s.now ++
  [byteOf s.liveTotal, holderByte s.edit.holder, boolByte s.edit.commitInFlight, byteOf s.faults.records.length,
   hostSetByte (attachedSet s)]

/-- The kind code of a fault record (R160). -/
def FaultCause.code : FaultCause → BitVec 3
  | .abandoned _ _ _ _ => 1
  | .overflow _ => 2
  | .hostLost _ _ _ => 3
  | .editExpired _ => 4

/-- The two bytes of a fault record's detail (R164). -/
def FaultCause.detail : FaultCause → List Byte
  | .abandoned _ _ _ count => [0, byteOf count]
  | .overflow _ => [0, 0]
  | .hostLost _ tickets session => [byteOf tickets, boolByte session]
  | .editExpired _ => [0, 0]

/-- The source, ticket and host bytes of a fault record, each where R141 makes it present (R164). -/
def FaultCause.subject : FaultCause → List Byte
  | .abandoned i h t _ =>
    [byteOf i.val] ++ wordBytes t ++ (match h with | some x => [byteOf x.val] | none => [])
  | .overflow i => [byteOf i.val]
  | .hostLost h _ _ => [byteOf h.val]
  | .editExpired h => [byteOf h.val]

/-- A fault record as FAULT_TAKE and FAULT_PEEK carry it: its own length in bytes, then its fields (R164). -/
def recordBytes (r : FaultRecord) : List Byte :=
  let body := wordBytes r.seq ++ [BitVec.ofBool r.gap ++ 0#4 ++ r.cause.code] ++ millisBytes r.timeMs ++
    r.cause.detail ++ r.cause.subject
  byteOf (body.length + 1) :: body

end Sys2Proof.Machine
end

