-- ==== Sys2Proof/Machine/Ports.lean ====
section
/-! DEFINITION. The port controllers: the opening, filling and judging of a request window (R148 to R151), passing a
good frame on and forming an answer (R153), the frame that finds the port WORKING (R154), and the idle deadline that
a taken request restarts (R127). -/

namespace Sys2Proof.Machine

/-! ## One port (R149 to R153) -/

/-- The direction byte 0x5A received: IDLE and ANSWERED enter RECEIVING and are recorded as prior_state (R150). -/
def Port.openRequest (p : Port) : Port :=
  match p.state with
  | .idle => { p with state := .receiving, priorState := some .idle, receiveBuffer := [] }
  | .answered => { p with state := .receiving, priorState := some .answered, receiveBuffer := [] }
  | _ => p

/-- Bytes clocked into the receive buffer (R150). -/
def Port.clockIn (p : Port) (bytes : List Byte) : Port :=
  { p with receiveBuffer := keptBytes (p.receiveBuffer ++ bytes) }

/-- An incomplete frame discarded: back to prior_state, an unread answer intact (R150). -/
def Port.discardFrame (p : Port) : Port :=
  match p.priorState with
  | some .answered => { p with state := .answered, priorState := none, receiveBuffer := [] }
  | _ => { p with state := .idle, priorState := none, receiveBuffer := [] }

/-- The first act on a frame that is judged: an unread answer is emptied and prev_unread becomes yes (R151). -/
def Port.disposeAnswer (p : Port) : Port :=
  if p.priorState = some .answered then { p with answerBuffer := [], prevUnread := true } else p

/-- A good frame passed on: WORKING, nothing being received any more (R153; assumption log 8). -/
def Port.passOn (p : Port) : Port := { p with state := .working, priorState := none, receiveBuffer := [] }

/-- An answer formed, with its flags byte: it fills the answer buffer, the port enters ANSWERED, and prev_unread and
refused become no (R153). -/
def Port.answer (p : Port) (a : Answer) (flags : Byte) : Port :=
  { p with
    state := .answered, priorState := none, receiveBuffer := [], answerBuffer := answerFrame a flags,
    prevUnread := false, refused := false }

/-- A request window on a WORKING port: discarded unread, refused becomes yes (R154). -/
def Port.refuse (p : Port) : Port := { p with refused := true }

/-- The port in DOWN: both buffers emptied, prior_state absent, both flags no, a window in progress discarded
(R156). -/
def Port.goDown (p : Port) : Port :=
  { p with
    state := .down, priorState := none, receiveBuffer := [], answerBuffer := [], prevUnread := false,
    refused := false, ignoring := false }

/-- The data output of a request window in which `count` bytes are clocked after the direction byte: 0x00 during the
direction byte and during every byte of the frame (R148). -/
def Port.putZeros (p : Port) (count : Nat) : Port := { p with shiftedOut := List.replicate (count + 1) 0 }

/-! ## Ignored windows (R148, R156, R159) -/

/-- Whether the next window to end on host `h`'s port is ignored: during a reset (R159), in DOWN (R148), and where it
was open when the port left DOWN or when a reset ended (R156, R159). -/
def windowIgnored (s : State) (h : HostId) : Bool :=
  !s.sampled || (s.port h).state == .down || (s.port h).ignoring

/-- The port at the end of an ignored window: it takes the next window, and has put nothing out (R148, R156, R159). -/
def Port.endIgnored (p : Port) : Port := { p with ignoring := false, shiftedOut := [] }

/-- The end of an ignored window on host `h`'s port. -/
def ignoreWindow (h : HostId) (s : State) : State := s.setPort h (s.port h).endIgnored

/-! ## Requests (R127, R153) -/

/-- R127: a request of the holder, when it is taken, sets idle_deadline to now plus 250 ms; there is no deadline while
a commit is in flight. -/
def touchIdle (h : HostId) (s : State) : State :=
  if s.edit.holder = some h ∧ s.edit.commitInFlight = false then
    s.setEdit { s.edit with idleDeadline := some (msAfter s.now Config.idleTime) }
  else s

/-- The answer formed for host `h`, on the state the event leaves (R153). -/
def formAnswer (h : HostId) (a : Answer) (s : State) : State :=
  s.setPort h ((s.port h).answer a (answerFlags s h))

/-- A request that its block has taken, and what it answered: the idle deadline (R127), then the answer. -/
def answerRequest (h : HostId) (taken : State × Answer) : State := formAnswer h taken.2 (touchIdle h taken.1)

/-- The bytes of a request frame besides its operands: code, length and check byte (R161). -/
def frameOverhead : Nat := 3

/-- The window of a good frame with `operands` operand bytes on host `h`'s port (R148, R151, R153): it is ignored where
R148, R156 or R159 says so, a WORKING port discards it (R154), and any other port passes the request on, which `take`
carries out. -/
def request (h : HostId) (operands : Nat) (take : State → State) (s : State) : State :=
  if windowIgnored s h then ignoreWindow h s
  else
    let p := (s.port h).putZeros (operands + frameOverhead)
    if p.state = .working then s.setPort h p.refuse else take (s.setPort h (p.openRequest.disposeAnswer).passOn)

/-- The window of a frame that the port itself answers, with BADFRAME or UNKNOWN (R151): not a request to any block,
and no deadline restarts. -/
def rejectFrame (h : HostId) (bytes : List Byte) (st : Status) (s : State) : State :=
  if windowIgnored s h then ignoreWindow h s
  else
    let p := (s.port h).putZeros bytes.length
    if p.state = .working then s.setPort h p.refuse
    else formAnswer h (Answer.bare st) (s.setPort h ((p.openRequest.clockIn bytes).disposeAnswer))

/-- The window of an incomplete frame (R150). -/
def dropFrame (h : HostId) (bytes : List Byte) (s : State) : State :=
  if windowIgnored s h then ignoreWindow h s
  else
    let p := (s.port h).putZeros bytes.length
    if p.state = .working then s.setPort h p.refuse
    else s.setPort h (p.openRequest.clockIn bytes).discardFrame

/-- The window of a 0x5A on a port that is WORKING, `count` bytes clocked after it (R154). On a port that is not
WORKING the event does not arise, and nothing happens (assumption log 5). -/
def workingWindow (h : HostId) (count : Nat) (s : State) : State :=
  if windowIgnored s h then ignoreWindow h s
  else if (s.port h).state = .working then s.setPort h ((s.port h).putZeros count).refuse
  else s

/-- The bytes put out in the rest of a window opened by neither 0x5A nor 0xC3: R148 does not say which, and each is a
free value (assumption log 10). -/
def freeBytes (first count : Nat) : List Byte := (List.range count).map fun n => Config.restOut (first + n)

/-- A window opened by a direction byte that names no window, `count` bytes clocked after it: its rest is ignored, and
nothing of the port changes (R148). -/
def otherWindow (h : HostId) (count : Nat) (s : State) : State :=
  if windowIgnored s h then ignoreWindow h s
  else
    (s.setPort h { s.port h with shiftedOut := 0 :: freeBytes s.drawn count }).setDrawn (s.drawn + count)

end Sys2Proof.Machine
end

