-- ==== Sys2Proof/Machine/Sources.lean ====
section
/-! DEFINITION. What a source does with an occurrence (R11 to R20), the level check (R15 to R17), the store of a
fault record with its notice to S63 (R142, R143), and the runtime changes of entering and leaving ARMED (R6 to R10). -/

namespace Sys2Proof.Machine

/-! ## Counting and marking (R12 to R14) -/

/-- R12 and R13 on one record: an occurrence of a counted source whose live ticket covers `covered`. The second
component says that the loss set a clear overflow_mark. -/
def countOccurrence (covered : Nat) (r : Source) : Source × Bool :=
  if r.pendingCount + covered < Config.countCap then ({ r with pendingCount := r.pendingCount + 1 }, false)
  else if r.overflowMark then (r, false)
  else ({ r with overflowMark := true }, true)

/-- R14 on one record: the hosts of host_set that are attached, and that `also` admits, are marked. -/
def markHosts (s : State) (also : HostId → Bool) (r : Source) : Source :=
  r.mapMarkers fun h m => if hasHost r.config.hostSet h && s.attached h && also h then m.mark else m

/-! ## The level check (R15, R16) -/

/-- Whether source `i` is a level source whose level is active: the accepted level of its line is 1 for HIGH, 0 for
LOW (section 1.3.4, R33). False for every other source. -/
def levelActive (s : State) (i : SourceId) : Bool :=
  let r := s.source i
  kindOf i == .watch &&
  match r.config.trigger with
  | .high => (s.line r.config.line).acceptedLevel
  | .low => !(s.line r.config.line).acceptedLevel
  | _ => false

/-- R16 on one record: attached hosts of host_set that `only` admits, with marker CLEAR, become OWED. -/
def oweClear (s : State) (only : HostId → Bool) (r : Source) : Source :=
  r.mapMarkers fun h m => if hasHost r.config.hostSet h && s.attached h && only h && m == .clear then .owed else m

/-- The level check of source `i` (R15, R16): runs on an ARMED source, and has nothing to do unless the source is a
level source whose level is active. -/
def levelCheck (i : SourceId) (s : State) : State :=
  let r := s.source i
  if r.state = .armed ∧ levelActive s i = true then
    match r.config.mode with
    | .one =>
      if r.pendingCount = 0 ∧ s.sourceTicket i = none then s.setSource i { r with pendingCount := 1 } else s
    | .each => s.setSource i (oweClear s (fun _ => true) r)
  else s

/-- The level check of EACH-mode source `i` for the attaching host alone (R113). -/
def levelCheckFor (h : HostId) (i : SourceId) (s : State) : State :=
  let r := s.source i
  if r.state = .armed ∧ levelActive s i = true ∧ r.config.mode = .each then
    s.setSource i (oweClear s (fun x => x == h) r)
  else s

/-! ## Fault records and notices (R20, R142, R143) -/

/-- The notice of a stored record, taken by S63 (R20, R143). -/
def takeNotice (s : State) : State :=
  let r := s.source noticeSource
  if r.state = .armed then
    match r.config.mode with
    | .one => s.setSource noticeSource (countOccurrence (s.coveredBy noticeSource) r).1
    | .each => s.setSource noticeSource (markHosts s (fun _ => true) r)
  else s

/-- The sequence number after one more store: 65535 goes back to 1, and 0 is never given (R142). -/
def advanceSeq (n : Word) : Word := if n = 65535 then 1 else n + 1

/-- The fault queue after a store at time `now`: on a full queue the oldest record goes and the new one is marked gap
(R142). -/
def FaultQueue.store (q : FaultQueue) (now : Millis) (cause : FaultCause) : FaultQueue :=
  let full := decide (Config.faultCap ≤ q.records.length)
  let kept := if full then q.records.drop 1 else q.records
  { records := kept ++ [{ seq := q.nextSeq, timeMs := now, cause := cause, gap := full }]
    nextSeq := advanceSeq q.nextSeq }

/-- A store of a fault record, with its notice (R142, R143). -/
def storeFault (cause : FaultCause) (s : State) : State :=
  takeNotice (s.setFaults (s.faults.store s.now cause))

/-! ## Edges (R11, R32) -/

/-- One edge occurrence on an ARMED watch source (R12, R14). The second component says that an OVERFLOW record of the
source is to be stored (R13). -/
def edgeOccurrence (i : SourceId) (s : State) : State × Bool :=
  let r := s.source i
  match r.config.mode with
  | .one =>
    let c := countOccurrence (s.coveredBy i) r
    (s.setSource i c.1, c.2)
  | .each => (s.setSource i (markHosts s (fun _ => true) r), false)

/-- What source `i` does with the report of an edge of its line, by its state and trigger (R11, R5). -/
def reactToEdge (rising : Bool) (i : SourceId) (s : State) : State × Bool :=
  let r := s.source i
  if r.state = .armed then
    match r.config.trigger with
    | .rise => if rising then edgeOccurrence i s else (s, false)
    | .fall => if rising then (s, false) else edgeOccurrence i s
    | .both => edgeOccurrence i s
    | .high => if rising then (levelCheck i s, false) else (s, false)
    | .low => if rising then (s, false) else (levelCheck i s, false)
  else (s, false)

/-- The watch sources whose line field holds line `l` (R32). -/
def receivers (s : State) (l : LineId) : List SourceId :=
  allSources.filter fun i => kindOf i == .watch && (s.source i).config.line == l

/-- Each source of the list takes the report, and the sources whose OVERFLOW record is to be stored are gathered. -/
def reportTo (rising : Bool) : List SourceId → State → State × List SourceId
  | [], s => (s, [])
  | i :: rest, s =>
    let one := reactToEdge rising i s
    let others := reportTo rising rest one.1
    (others.1, if one.2 then i :: others.2 else others.2)

/-- The OVERFLOW records of the listed sources, stored in the list's order (R13, R142). -/
def storeOverflows : List SourceId → State → State
  | [], s => s
  | i :: rest, s => storeOverflows rest (storeFault (.overflow i) s)

/-- The report of an accepted edge of line `l` (R32): every watch source that selects it takes it once, none reading
what another received. Where several of them lose an occurrence, the manual gives their records no order, and the
order is free (assumption log 3). -/
def reportEdge (l : LineId) (rising : Bool) (s : State) : State :=
  let taken := reportTo rising (receivers s l) s
  let lost := taken.2
  storeOverflows (freeOrder taken.1.drawn lost) (taken.1.setDrawn (taken.1.drawn + lost.length))

/-! ## Entering and leaving ARMED (R6 to R10) -/

/-- R6: the runtime part of a source that a commit arms, or that R9 clears: counts, queue and attempts at their reset
values; in EACH mode HELD for each host that holds a live ticket of it, and every other marker CLEAR. A ONE-mode
source's markers hold their reset value (R3). DEDUCED, assumption log 12. -/
def clearRuntime (s : State) (i : SourceId) (r : Source) : Source :=
  { r.clearAttempts with
    state := .armed
    pendingCount := 0
    overflowMark := false
    argQueue := []
    marker := Vector.ofFn fun h => if r.config.mode = .each ∧ s.holds i h = true then .held else .clear }

/-- The waiting work discarded when a source leaves ARMED (R7, R8): counts, mark and queue cleared, nothing owed. -/
def dropWaiting (r : Source) : Source :=
  { r with pendingCount := 0, overflowMark := false, argQueue := [], marker := (r.mapMarkers fun _ m => m.dropOwed).marker }

/-- R7: a commit disables the source. -/
def disableRuntime (r : Source) : Source := { (dropWaiting r).clearAttempts with state := .off }

/-- R8: abandonment. The attempt counts and the mailbox are kept. -/
def faultRuntime (r : Source) : Source := { dropWaiting r with state := .faulted }

/-- R10: REARM of a FAULTED source. -/
def rearmRuntime (r : Source) : Source := { r.clearAttempts with state := .armed }

end Sys2Proof.Machine
end

