-- ==== Sys2Proof/Machine/Tickets.lean ====
section
/-! DEFINITION. The selection of a claim (R56, R61), the issue of a ticket (R66 to R75), and what every end of a
ticket does (R80 to R85, R88 to R92, R118). -/

namespace Sys2Proof.Machine

/-! ## Selection (R56, R61) -/

/-- The better of two sources of one lane: the lower rank, and of equal ranks the lower number (R61, step 4). -/
def better (s : State) (a b : SourceId) : SourceId :=
  let ra := (s.source a).config.rank
  let rb := (s.source b).config.rank
  if rb < ra then b else if ra < rb then a else if b < a then b else a

/-- The best source of a list; none of an empty one. -/
def bestOf (s : State) : List SourceId → Option SourceId
  | [] => none
  | i :: rest =>
    match bestOf s rest with
    | none => some i
    | some j => some (better s i j)

/-- The sources deliverable to `h` whose lane field names `k` (R61, step 2). -/
def candidates (s : State) (h : HostId) (k : LaneId) : List SourceId :=
  allSources.filter fun i => deliverable s i h && (s.source i).config.lane == k

/-- The first lane of the list that holds a deliverable source decides (R61, step 3). -/
def selectFrom (s : State) (h : HostId) : List LaneId → Option SourceId
  | [] => none
  | k :: rest =>
    match bestOf s (candidates s h k) with
    | some i => some i
    | none => selectFrom s h rest

/-- What a CLAIM's lane_choice names (R55, R160). -/
inductive LaneChoice where
  | any
  | lane (k : LaneId)
  deriving DecidableEq, Repr

/-- The lane_choice a byte stands for: 0xFF is ANY, 0 to 7 a lane; other values name neither (R160). -/
def laneChoiceOf (b : Byte) : Option LaneChoice :=
  if b = 0xFF then some .any else if h : b.toNat < 8 then some (.lane ⟨b.toNat, h⟩) else none

/-- The lanes the selection considers (R56): with ANY, those of the mask in which the host has credit; a named lane
alone, if the host has credit in it. -/
def lanesFor (s : State) (h : HostId) : LaneChoice → List LaneId
  | .any => allLanes.filter fun k => hasLane (s.host h).laneMask k && hasCredit s h k
  | .lane k => if hasCredit s h k then [k] else []

/-- The source a claim of `h` selects (R61). -/
def select (s : State) (h : HostId) (c : LaneChoice) : Option SourceId := selectFrom s h (lanesFor s h c)

/-! ## Issue (R69 to R75) -/

/-- covered_count at issue: the whole pending count of a ONE-mode watch or notice source, else 1 (R70 to R74). -/
def coveredAtIssue (i : SourceId) (r : Source) : Nat :=
  match r.config.mode with
  | .one => if kindOf i = .posted then 1 else r.pendingCount
  | .each => 1

/-- The argument at issue: the head of arg_queue (R72), or the mailbox word (R74); absent for other kinds. -/
def argumentAtIssue (i : SourceId) (r : Source) : Option Word :=
  if kindOf i = .posted then
    match r.config.mode with
    | .one => r.argQueue.head?
    | .each => some r.mailbox
  else none

/-- The attempt field at issue (R75). -/
def attemptAtIssue (h : HostId) (r : Source) : Nat :=
  match r.config.mode with
  | .one => r.attempts + 1
  | .each => r.attemptsOf h + 1

/-- The ticket that a claim of `h` receives of source `i` in slot `k` (R68, R75). -/
def ticketAtIssue (s : State) (h : HostId) (i : SourceId) (k : SlotId) : Ticket :=
  let r := s.source i
  { number := ticketNumber (advanceSequence (s.slot k).sequence) k
    host := h
    source := i
    lane := r.config.lane
    handle := r.config.handle
    coveredCount := coveredAtIssue i r
    argument := argumentAtIssue i r
    attempt := attemptAtIssue h r
    issuedMs := s.now
    leaseMs := r.config.leaseMs
    deadlineMs := if r.config.leaseMs = 0 then none else some (msAfter s.now r.config.leaseMs)
    extensions := 0 }

/-- What the source keeps when its work moves into a ticket of `h` (R70 to R74; overflow_mark by R13, R70). -/
def sourceAfterIssue (h : HostId) (i : SourceId) (r : Source) : Source :=
  match r.config.mode with
  | .one =>
    if kindOf i = .posted then { r with argQueue := r.argQueue.drop 1 }
    else { r with pendingCount := 0, overflowMark := false }
  | .each => r.setMarker h .held

/-- The issue of a ticket, one event (R69): slot, source and ATN. -/
def issue (h : HostId) (i : SourceId) (k : SlotId) (s : State) : State :=
  recomputeAtn
    ((s.setSlot k { sequence := advanceSequence (s.slot k).sequence, ticket := some (ticketAtIssue s h i k) }).setSource i
      (sourceAfterIssue h i (s.source i)))

/-! ## What the source takes of an end (R81, R83, R85, R118) -/

/-- R81: the work of a ticket of `h` is consumed, and the attempt count of the work becomes 0. -/
def consumeWork (h : HostId) (r : Source) : Source :=
  match r.config.mode with
  | .one => { r with attempts := 0 }
  | .each => (r.setMarker h (r.markerOf h).complete).setAttemptsOf h 0

/-- R83: the work of a ticket goes back to its source. -/
def returnWork (t : Ticket) (r : Source) : Source :=
  match r.config.mode with
  | .one =>
    if kindOf t.source = .posted then { r with argQueue := t.argument.toList ++ r.argQueue }
    else { r with pendingCount := r.pendingCount + t.coveredCount }
  | .each => r.setMarker t.host (if hasHost r.config.hostSet t.host then .owed else .clear)

/-- R85: the work of a ticket whose source is OFF or FAULTED is discarded. -/
def discardWork (h : HostId) (r : Source) : Source :=
  match r.config.mode with
  | .one => r
  | .each => r.setMarker h .clear

/-- R118: the work of a released host's ticket, its source ARMED: returned in ONE mode, marker CLEAR in EACH mode. -/
def releaseWork (t : Ticket) (r : Source) : Source :=
  match r.config.mode with
  | .one => returnWork t r
  | .each => r.setMarker t.host .clear

/-! ## DONE, DEFER and the expiry (R80, R88, R90) -/

/-- The end of ticket `t`, in slot `k`, by DONE (R81, R85), without the ATN recomputation. -/
def endDone (k : SlotId) (t : Ticket) (s : State) : State :=
  let s1 := freeSlot k s
  let r := s1.source t.source
  if r.state = .armed then levelCheck t.source (s1.setSource t.source (consumeWork t.host r))
  else s1.setSource t.source (discardWork t.host r)

/-- The end of ticket `t`, in slot `k`, by DEFER (R84, R85), without the ATN recomputation. -/
def endDefer (k : SlotId) (t : Ticket) (s : State) : State :=
  let s1 := freeSlot k s
  let r := s1.source t.source
  if r.state = .armed then levelCheck t.source (s1.setSource t.source (returnWork t r))
  else s1.setSource t.source (discardWork t.host r)

/-- An attempt counter raised by one, to at most 7 (R4, R88). -/
def raiseAttempts (n : Nat) : Nat := if n < Config.attemptsCap then n + 1 else n

/-- Whether the expiry of a ticket of `h` counts an attempt: in EACH mode only for a host of host_set (R88, step 2). -/
def countsAttempt (h : HostId) (r : Source) : Bool :=
  match r.config.mode with
  | .one => true
  | .each => hasHost r.config.hostSet h

/-- The attempt count of the work of `h` (R89). -/
def attemptCount (h : HostId) (r : Source) : Nat :=
  match r.config.mode with
  | .one => r.attempts
  | .each => r.attemptsOf h

/-- The record with the attempt count of the work of `h` raised by one (R88, step 2). -/
def countAttempt (h : HostId) (r : Source) : Source :=
  match r.config.mode with
  | .one => { r with attempts := raiseAttempts r.attempts }
  | .each => r.setAttemptsOf h (raiseAttempts (r.attemptsOf h))

/-- The abandonment test of R90, on the count just raised; S63 is exempt (R92). -/
def abandons (i : SourceId) (h : HostId) (r : Source) : Bool :=
  i != noticeSource && r.config.retryLimit != 0 && attemptCount h r == r.config.retryLimit.val

/-- The host an ABANDONED record names: the holder for an EACH-mode source, none for a ONE-mode one (R91). -/
def abandonedHost (h : HostId) (r : Source) : Option HostId :=
  match r.config.mode with
  | .one => none
  | .each => some h

/-- The expiry of ticket `t` against an ARMED source, its slot already freed: return, count, abandonment test, level
check (R88, R90). -/
def expireArmed (t : Ticket) (s : State) : State :=
  let returned := returnWork t (s.source t.source)
  if countsAttempt t.host returned then
    let counted := countAttempt t.host returned
    if abandons t.source t.host counted then
      storeFault
        (.abandoned t.source (abandonedHost t.host counted) t.number (attemptCount t.host counted))
        (s.setSource t.source (faultRuntime counted))
    else levelCheck t.source (s.setSource t.source counted)
  else levelCheck t.source (s.setSource t.source returned)

/-- The lease expiry of ticket `t`, in slot `k` (R88), without the ATN recomputation. -/
def endExpired (k : SlotId) (t : Ticket) (s : State) : State :=
  let s1 := freeSlot k s
  if (s1.source t.source).state = .armed then expireArmed t s1
  else s1.setSource t.source (discardWork t.host (s1.source t.source))

/-- The end of ticket `t`, in slot `k`, by host release, without level check or ATN recomputation (R118). -/
def endReleased (k : SlotId) (t : Ticket) (s : State) : State :=
  let s1 := freeSlot k s
  let r := s1.source t.source
  if r.state = .armed then s1.setSource t.source (releaseWork t r)
  else s1.setSource t.source (discardWork t.host r)

end Sys2Proof.Machine
end

