-- ==== Sys2Proof/Machine/Claims.lean ====
section
/-! DEFINITION. The claim arbiter: CLAIM, which waits (R55, R57), and CLAIM_TAKEN, which takes one waiting claim in
rotating order (R55 to R64, R69, R76). -/

namespace Sys2Proof.Machine

/-- The order in which waiting claims are taken, from the port after the one the pointer names (R58). -/
def rotationOrder (pointer : HostId) : List HostId := [pointer + 1, pointer + 2, pointer + 3, pointer]

/-- The next claim to be taken: its host and its lane_choice (R58). -/
def nextClaim (s : State) : Option (HostId × Byte) :=
  match (rotationOrder s.rotation).find? fun h => (s.waitingClaim h).isSome with
  | some h => match s.waitingClaim h with
    | some c => some (h, c)
    | none => none
  | none => none

/-- Whether the mask of `h` admits the choice (R55, step 2). -/
def choiceAdmitted (s : State) (h : HostId) : LaneChoice → Bool
  | .any => true
  | .lane k => hasLane (s.host h).laneMask k

/-- Steps 4 and 5 of R55: selection and issue, or NONE. -/
def serveClaim (h : HostId) (c : LaneChoice) (s : State) : State × Answer :=
  match select s h c, s.lowestFree with
  | some i, some k => (issue h i k s, Answer.okWith (claimData (ticketAtIssue s h i k)))
  | _, _ => (s, Answer.bare .none)

/-- A claim of `h` as the arbiter takes it (R55). -/
def takeClaim (h : HostId) (laneChoice : Byte) (s : State) : State × Answer :=
  if s.attached h = false then (s, Answer.bare .notAttached)
  else match laneChoiceOf laneChoice with
    | none => (s, Answer.bare .badValue)
    | some c =>
      if choiceAdmitted s h c = false then (s, Answer.bare .badValue)
      else if 32 ≤ s.liveTotal then (s, Answer.bare .full)
      else serveClaim h c s

/-- CLAIM: the good frame is passed on, and the claim waits at the arbiter while its port is WORKING (R57). -/
def execClaim (h : HostId) (laneChoice : Byte) (s : State) : Host.Outcome State Fault Refusal :=
  .next (request h 1 (fun x => x.setWaiting h (some laneChoice)) s)

/-- CLAIM_TAKEN: one waiting claim is taken, whatever its answer the pointer moves to its port, and the answer is
formed at once (R57, R58). With no claim waiting there is none to take. -/
def execClaimTaken (s : State) : Host.Outcome State Fault Refusal :=
  match nextClaim s with
  | none => .next s
  | some (h, c) => .next (answerRequest h (takeClaim h c ((s.setWaiting h none).setRotation h)))

end Sys2Proof.Machine
end

