-- ==== Sys2Proof/Machine/Edit.lean ====
section
/-! DEFINITION. The edit unit: the session (R126 to R128, R133), the staged list (R129 to R132), and the commit, from
EDIT_COMMIT to its completion (R134 to R137). -/

namespace Sys2Proof.Machine

/-- Whether `h` holds the edit session. -/
def State.isHolder (s : State) (h : HostId) : Bool := s.edit.holder == some h

/-- The host record of `h` with its edit_state changed: it follows the edit unit (R111, R124). -/
def setEditState (h : HostId) (e : EditState) (s : State) : State := s.setHost h { s.host h with editState := e }

/-- The session ended: no holder, empty list, no deadline, no commit in flight, and the former holder's edit_state
none. -/
def endSession (h : HostId) (s : State) : State := setEditState h .none (s.setEdit EditUnit.reset)

/-! ## Holding the session (R126, R128, R133) -/

/-- EDIT_OPEN as the edit unit takes it (R126). -/
def takeEditOpen (h : HostId) (s : State) : State × Answer :=
  if s.attached h = false then (s, Answer.bare .notAttached)
  else match s.edit.holder with
    | some x => if x = h then (s, Answer.bare .wrongState) else (s, Answer.bare .busy)
    | none =>
      (setEditState h .session
        (s.setEdit { EditUnit.reset with holder := some h, idleDeadline := some (msAfter s.now Config.idleTime) }),
        Answer.okWith (wordOfNat Config.idleTime))

/-- EDIT_CLOSE as the edit unit takes it (R133). -/
def takeEditClose (h : HostId) (s : State) : State × Answer :=
  if s.isHolder h = false then (s, Answer.bare .noSession)
  else (endSession h s, Answer.okWith [byteOf s.edit.staged.length])

/-- The holder whose idle deadline is reached, with no commit in flight (R128). -/
def idleExpired (s : State) : Option HostId :=
  match s.edit.holder, s.edit.idleDeadline with
  | some h, some d => if s.edit.commitInFlight = false ∧ reachedMs s.now d = true then some h else none
  | _, _ => none

/-! ## The staged list (R125, R129 to R132) -/

/-- The position of the entry for a target in the list (R125). -/
def positionOf (t : Target) : List StagedEntry → Option Nat
  | [] => none
  | e :: rest => if e.target = t then some 0 else (positionOf t rest).map (· + 1)

/-- R130: the list after an entry is staged: replaced where its target stands, else appended. -/
def stageEntry (e : StagedEntry) (list : List StagedEntry) : List StagedEntry :=
  match positionOf e.target list with
  | some p => list.set p e
  | none => list ++ [e]

/-- The staged list replaced. -/
def setStaged (list : List StagedEntry) (s : State) : State := s.setEdit { s.edit with staged := list }

/-- Steps 4 and 5 of R129, and R130, for a record that passed its validation. -/
def stage (e : StagedEntry) (s : State) : State × Answer :=
  let list := s.edit.staged
  match positionOf e.target list with
  | some p => (setStaged (stageEntry e list) s, Answer.okWith [byteOf p, byteOf list.length])
  | none =>
    if Config.stagedCap ≤ list.length then (s, Answer.bare .full)
    else (setStaged (stageEntry e list) s, Answer.okWith [byteOf list.length, byteOf (list.length + 1)])

/-- EDIT_STAGE as the edit unit takes it (R129). -/
def takeEditStage (h : HostId) (kind number : Byte) (record : List Byte) (s : State) : State × Answer :=
  if s.isHolder h = false then (s, Answer.bare .noSession)
  else match parseTarget kind number with
    | none => (s, Answer.bare .badValue)
    | some t => match parseRecord t record with
      | none => (s, Answer.bare .badValue)
      | some e => stage e s

/-- EDIT_DROP as the edit unit takes it (R131). -/
def takeEditDrop (h : HostId) (kind number : Byte) (s : State) : State × Answer :=
  if s.isHolder h = false then (s, Answer.bare .noSession)
  else match parseTarget kind number with
    | none => (s, Answer.bare .badValue)
    | some t => match positionOf t s.edit.staged with
      | none => (s, Answer.bare .none)
      | some p =>
        (setStaged (s.edit.staged.eraseIdx p) s, Answer.okWith [byteOf p, byteOf (s.edit.staged.length - 1)])

/-- EDIT_LIST as the edit unit takes it (R132, R163). -/
def takeEditList (h : HostId) (firstPosition : Byte) (s : State) : State × Answer :=
  if s.isHolder h = false then (s, Answer.bare .noSession)
  else if 15 < firstPosition.toNat then (s, Answer.bare .badValue)
  else
    let shown := (s.edit.staged.drop firstPosition.toNat).take 4
    (s, Answer.okWith ([byteOf s.edit.staged.length, byteOf shown.length] ++ shown.flatMap StagedEntry.bytes))

/-! ## The commit (R134 to R137) -/

/-- EDIT_COMMIT of the holder: the commit is in flight, and no answer is formed (R134). -/
def beginCommit (h : HostId) (s : State) : State :=
  setEditState h .commit
    (s.setEdit
      { s.edit with
        commitInFlight := true, idleDeadline := none, commitBoundUs := some (s.clock.us + Config.commitBound) })

/-- EDIT_COMMIT as the edit unit takes it (R134). -/
def takeEditCommit (h : HostId) (s : State) : State :=
  if s.isHolder h = false then answerRequest h (s, Answer.bare .noSession) else beginCommit h s

/-- Whether a trigger is RISE, FALL or BOTH (R17). -/
def Trigger.isEdge : Trigger → Bool
  | .rise => true
  | .fall => true
  | .both => true
  | .high => false
  | .low => false

/-- Both records in ONE mode, and a watch source's trigger changed from edge to level (R9, R134). -/
def edgeToLevel (i : SourceId) (old new : SourceConfig) : Bool :=
  kindOf i == .watch && old.mode == .one && new.mode == .one && old.trigger.isEdge && !new.trigger.isEdge

/-- Whether a staged entry is a conflict on the state as it stands (R134). -/
def isConflict (s : State) : StagedEntry → Bool
  | .source i c =>
    let old := (s.source i).config
    (s.sourceTicket i).isSome && (c.mode != old.mode || edgeToLevel i old c)
  | .lane _ _ => false
  | .line _ _ => false

/-- The first conflicting entry in list order, with its position (R135). -/
def firstConflict (s : State) : List StagedEntry → Option (Nat × Target)
  | [] => none
  | e :: rest =>
    if isConflict s e then some (0, e.target) else (firstConflict s rest).map fun x => (x.1 + 1, x.2)

/-- A staged configuration with the fields that do not belong to the source's kind at their reset values (R2). -/
def configFor (i : SourceId) (c : SourceConfig) : SourceConfig :=
  match kindOf i with
  | .watch => { c with posters := 0, echo := false }
  | .posted => { c with line := 0, trigger := .rise }
  | .notice => { c with line := 0, trigger := .rise, posters := 0, echo := false }

/-- The runtime part that a same-mode commit on an ARMED source keeps: attempts cleared, and nothing owed to hosts the
new host_set does not contain (R9). -/
def keepRuntime (r : Source) : Source :=
  r.clearAttempts.mapMarkers fun h m => if hasHost r.config.hostSet h then m else m.dropOwed

/-- A commit of configuration `c` changes the mode of a source record (R9). -/
def changesMode (old : Source) (c : SourceConfig) : Bool := c.mode != old.config.mode

/-- The commit enters ARMED, or clears the runtime part of an ARMED source, so that a level check follows (R137). -/
def clearsRuntime (i : SourceId) (old : Source) (c : SourceConfig) : Bool :=
  c.enabled && (old.state != .armed || changesMode old c || edgeToLevel i old.config c)

/-- A source record after a commit writes configuration `c`, already the source's kind's: R6, R7 and R9, as R137 gives
them. -/
def commitSource (s : State) (i : SourceId) (c : SourceConfig) (old : Source) : Source :=
  let r := { old with config := c, mailbox := if changesMode old c then 0 else old.mailbox }
  if clearsRuntime i old c then clearRuntime s i r
  else if c.enabled then keepRuntime r
  else if old.state = .off then r
  else disableRuntime r

/-- One staged record written into its table, with its source's runtime change (R136, steps 1 and 2). -/
def applyEntry (s : State) : StagedEntry → State
  | .source i c => s.setSource i (commitSource s i (configFor i c) (s.source i))
  | .lane k limit => s.setCreditLimit k limit
  | .line i us => s.setLine i { s.line i with settleUs := us }

/-- The source whose level check an entry requires (R136, step 3). -/
def checkAfter (s : State) : StagedEntry → Option SourceId
  | .source i c => if clearsRuntime i (s.source i) (configFor i c) then some i else none
  | .lane _ _ => none
  | .line _ _ => none

/-- Every staged record written, then the level checks on the records just written (R136, steps 1 to 3). -/
def applyAll (list : List StagedEntry) (s : State) : State :=
  (list.filterMap (checkAfter s)).foldl (fun x i => levelCheck i x) (list.foldl applyEntry s)

/-- A completion that finds a conflict (R135). -/
def completeConflict (h : HostId) (position : Nat) (t : Target) (s : State) : State :=
  formAnswer h { status := .conflict, data := t.bytes ++ [byteOf position] }
    (setEditState h .session
      (s.setEdit
        { s.edit with
          commitInFlight := false, commitBoundUs := none,
          idleDeadline := some (msAfter s.now Config.idleTime) }))

/-- A completion that finds no conflict: every entry applies, the session ends, the answer is formed (R136). -/
def completeApply (h : HostId) (s : State) : State :=
  formAnswer h (Answer.okWith [byteOf s.edit.staged.length])
    (recomputeAtn (endSession h (applyAll s.edit.staged s)))

def execEditOpen (h : HostId) (s : State) : Host.Outcome State Fault Refusal :=
  .next (request h 0 (fun x => answerRequest h (takeEditOpen h x)) s)

/-- EDIT_STAGE. Operands of a length that R161 does not admit fail check 5 of R151, and the port answers BADFRAME. -/
def execEditStage (h : HostId) (kind number : Byte) (record : List Byte) (s : State) :
    Host.Outcome State Fault Refusal :=
  if stageLengthAllowed (kind :: number :: record) then
    .next (request h (record.length + 2) (fun x => answerRequest h (takeEditStage h kind number record x)) s)
  else .next (rejectFrame h (requestFrame 0x61 (kind :: number :: record)) .badFrame s)

def execEditDrop (h : HostId) (kind number : Byte) (s : State) : Host.Outcome State Fault Refusal :=
  .next (request h 2 (fun x => answerRequest h (takeEditDrop h kind number x)) s)

def execEditList (h : HostId) (firstPosition : Byte) (s : State) : Host.Outcome State Fault Refusal :=
  .next (request h 1 (fun x => answerRequest h (takeEditList h firstPosition x)) s)

def execEditCommit (h : HostId) (s : State) : Host.Outcome State Fault Refusal :=
  .next (request h 0 (takeEditCommit h) s)

def execEditClose (h : HostId) (s : State) : Host.Outcome State Fault Refusal :=
  .next (request h 0 (fun x => answerRequest h (takeEditClose h x)) s)

/-- COMMIT_COMPLETION: judged and applied on the state as it stands (R134, R135, R136). With no commit in flight there
is nothing to complete. -/
def execCommitCompletion (s : State) : Host.Outcome State Fault Refusal :=
  match s.edit.holder with
  | none => .next s
  | some h =>
    if s.edit.commitInFlight then
      match firstConflict s s.edit.staged with
      | some (position, t) => .next (completeConflict h position t s)
      | none => .next (completeApply h s)
    else .next s

/-- IDLE_EXPIRY: the time base has reached idle_deadline with no commit in flight (R128). An expiry that a request of
the holder moved does not happen. -/
def execIdleExpiry (s : State) : Host.Outcome State Fault Refusal :=
  match idleExpired s with
  | none => .next s
  | some h => .next (recomputeAtn (storeFault (.editExpired h) (endSession h s)))

end Sys2Proof.Machine
end

