-- ==== Sys2Proof/Machine/FaultRequests.lean ====
section
/-! DEFINITION. The requests the fault queue takes: FAULT_TAKE (R145) and FAULT_PEEK (R146). -/

namespace Sys2Proof.Machine

/-- FAULT_TAKE as the fault queue takes it (R145). -/
def takeFaultTake (s : State) : State × Answer :=
  match s.faults.records with
  | [] => (s, Answer.bare .none)
  | r :: rest =>
    (s.setFaults { s.faults with records := rest }, Answer.okWith (recordBytes r ++ [byteOf rest.length]))

/-- FAULT_PEEK as the fault queue takes it (R146, R164). -/
def takeFaultPeek (s : State) : State × Answer :=
  let shown := s.faults.records.take 4
  (s, Answer.okWith
    ([byteOf s.faults.records.length] ++ wordBytes s.faults.nextSeq ++ [byteOf shown.length] ++
      shown.flatMap recordBytes))

def execFaultTake (h : HostId) (s : State) : Host.Outcome State Fault Refusal :=
  .next (request h 0 (fun x => answerRequest h (takeFaultTake x)) s)

def execFaultPeek (h : HostId) (s : State) : Host.Outcome State Fault Refusal :=
  .next (request h 0 (fun x => answerRequest h (takeFaultPeek x)) s)

end Sys2Proof.Machine
end

