-- ==== Sys2Proof/Machine/Hosts.lean ====
section
/-! DEFINITION. The commands the host table takes: ATTACH (R112, R113), DETACH (R115, R116), SET_MASK (R46), host
release by DOWN (R117 to R121) and the deassertion of DOWN (R123). -/

namespace Sys2Proof.Machine

/-- ATTACH as the host table takes it (R112, R113). -/
def takeAttach (h : HostId) (mask : LaneMask) (s : State) : State × Answer :=
  if s.attached h then (s, Answer.bare .wrongState)
  else
    let s1 := s.setHost h { s.host h with attached := true, laneMask := mask }
    (recomputeAtn (allSources.foldl (fun x i => levelCheckFor h i x) s1), Answer.okWith [mask])

/-- The markers OWED to host `h` cleared, in every EACH-mode source (R116, R119). -/
def clearOwedTo (h : HostId) (s : State) : State :=
  s.mapSources fun _ r => if r.config.mode = .each ∧ r.markerOf h = .owed then r.setMarker h .clear else r

/-- DETACH as the host table takes it (R115, R116). -/
def takeDetach (h : HostId) (s : State) : State × Answer :=
  if s.attached h = false then (s, Answer.bare .notAttached)
  else if s.ticketsOf h ≠ [] then (s, Answer.bare .busy)
  else if (s.host h).editState = .session then (s, Answer.bare .busy)
  else
    (recomputeAtn (clearOwedTo h (s.setHost h { s.host h with attached := false, laneMask := 0 })), Answer.okWith [])

/-- SET_MASK as the host table takes it (R46). -/
def takeSetMask (h : HostId) (mask : LaneMask) (s : State) : State × Answer :=
  if s.attached h = false then (s, Answer.bare .notAttached)
  else (recomputeAtn (s.setHost h { s.host h with laneMask := mask }), Answer.okWith [mask])

/-- The ticket in slot `k` ended by the release of `h`, if `h` holds it (R118). -/
def releaseSlot (h : HostId) (k : SlotId) (s : State) : State :=
  match (s.slot k).ticket with
  | some t => if t.host = h then endReleased k t s else s
  | none => s

/-- Every live ticket of `h` ended (R118). -/
def releaseTickets (h : HostId) (s : State) : State := allSlots.foldl (fun x k => releaseSlot h k x) s

/-- The edit session ended, if `h` holds it: list, deadline and a commit in flight go with it (R120). -/
def releaseSession (h : HostId) (s : State) : State :=
  if s.edit.holder = some h then s.setEdit EditUnit.reset else s

/-- The level checks of the sources whose tickets a release ended, on the state the release leaves (R118). -/
def releaseChecks (tickets : List Ticket) (s : State) : State :=
  tickets.foldl (fun x t => levelCheck t.source x) s

/-- Host release, one event (R117). -/
def release (h : HostId) (s : State) : State :=
  let tickets := s.ticketsOf h
  let session := s.edit.holder == some h
  let s1 := releaseSession h (clearOwedTo h (releaseTickets h s))
  let s2 := ((s1.setHost h HostRec.reset).setWaiting h none).setPort h (s1.port h).goDown
  let s3 := releaseChecks tickets s2
  recomputeAtn
    (if tickets ≠ [] ∨ session = true then storeFault (.hostLost h tickets.length session) s3 else s3)

def execAttach (h : HostId) (mask : LaneMask) (s : State) : Host.Outcome State Fault Refusal :=
  .next (request h 1 (fun x => answerRequest h (takeAttach h mask x)) s)

def execDetach (h : HostId) (s : State) : Host.Outcome State Fault Refusal :=
  .next (request h 0 (fun x => answerRequest h (takeDetach h x)) s)

def execSetMask (h : HostId) (mask : LaneMask) (s : State) : Host.Outcome State Fault Refusal :=
  .next (request h 1 (fun x => answerRequest h (takeSetMask h mask x)) s)

/-- HOST_RELEASE: an assertion of DOWN is taken once. A port already in DOWN has its DOWN input asserted, so there is
no assertion to take (R117). -/
def execHostRelease (h : HostId) (s : State) : Host.Outcome State Fault Refusal :=
  if (s.port h).state = .down then .next s else .next (release h s)

/-- The port when DOWN is deasserted: IDLE, with empty buffers and both flags no; a window that is open at that moment
is ignored to its end (R123, R156). -/
def Port.leaveDown (p : Port) (windowOpen : Bool) : Port := { p.goDown with state := .idle, ignoring := windowOpen }

/-- DOWN_DEASSERTION: the port leaves DOWN, and the host record is not changed (R123, R156). On a port that is not in
DOWN the input is not asserted, and nothing happens. -/
def execDownDeassertion (d : Deassertion) (s : State) : Host.Outcome State Fault Refusal :=
  if (s.port d.host).state = .down then .next (s.setPort d.host ((s.port d.host).leaveDown d.windowOpen)) else .next s

end Sys2Proof.Machine
end

