-- ==== Sys2Proof/Machine/LineUnit.lean ====
section
/-! DEFINITION. The line unit: the start-up acceptance (R34), raw changes (R27 to R30), settle expiries (R31) and
READ_LINE (R37). -/

namespace Sys2Proof.Machine

/-- A line after its first sample (R34). -/
def Line.firstSample (level : Bool) (l : Line) : Line := { l with rawLevel := level, acceptedLevel := level }

/-- An accepted edge of line `i` at `level`: the line's new record, the report (R32) and the ATN outputs (R49). -/
def acceptEdge (i : LineId) (level : Bool) (s : State) : State :=
  recomputeAtn
    (reportEdge i level
      (s.setLine i { s.line i with rawLevel := level, acceptedLevel := level, settleDeadline := none }))

/-- A raw change of line `i` to `level` (R28, R29, R30). -/
def rawChange (i : LineId) (level : Bool) (s : State) : State :=
  let l := s.line i
  match l.settleDeadline with
  | some _ => s.setLine i { l with rawLevel := level, settleDeadline := none }
  | none =>
    if l.settleUs = 0 then acceptEdge i level s
    else s.setLine i { l with rawLevel := level, settleDeadline := some (s.clock.us + l.settleUs) }

/-- READ_LINE as the line unit takes it (R37). -/
def takeReadLine (line : Byte) (s : State) : State × Answer :=
  if h : line.toNat < 40 then
    (s, Answer.okWith (lineData s.clock.us ⟨line.toNat, h⟩ (s.line ⟨line.toNat, h⟩)))
  else (s, Answer.bare .badValue)

/-- Whether line `i` is settling and its deadline is reached on the line unit's clock (R31). -/
def settleDue (s : State) (i : LineId) : Bool :=
  match (s.line i).settleDeadline with
  | some d => d ≤ s.clock.us
  | none => false

def execReadLine (h : HostId) (line : Byte) (s : State) : Host.Outcome State Fault Refusal :=
  .next (request h 1 (fun x => answerRequest h (takeReadLine line x)) s)

/-- A port when a reset ends: one in DOWN stays there, and on any other a window that is open at that moment is ignored
to its end (R159). -/
def Port.endReset (p : Port) (windowOpen : Bool) : Port :=
  if p.state = .down then p else { p with ignoring := windowOpen }

/-- The end of a reset: the first sample of every line sets both its levels and reports no edge (R34), and the ports
take windows again (R159). -/
def endReset (found : ResetEnd) (s : State) : State :=
  ((s.mapLines fun i l => l.firstSample (found.levels.getLsbD i.val)).mapPorts fun h p =>
    p.endReset (hasHost found.openWindows h)).setSampled true

/-- START_UP_ACCEPTANCE: the end of the reset (R34, R159; assumption log 13). The lines have one first sample after a
reset; once they have had it, nothing happens. -/
def execStartUpAcceptance (found : ResetEnd) (s : State) : Host.Outcome State Fault Refusal :=
  if s.sampled then .next s else .next (endReset found s)

/-- RAW_CHANGE: a sample of line `i` (R27). A sample equal to raw_level changes nothing, and no line is sampled before
its first sample. -/
def execRawChange (i : LineId) (level : Bool) (s : State) : Host.Outcome State Fault Refusal :=
  if s.sampled = true ∧ (s.line i).rawLevel ≠ level then .next (rawChange i level s) else .next s

/-- SETTLE_EXPIRY of line `i` (R31). An expiry that a raw change cancelled does not happen (R29). -/
def execSettleExpiry (i : LineId) (s : State) : Host.Outcome State Fault Refusal :=
  if settleDue s i then .next (acceptEdge i (s.line i).rawLevel s) else .next s

end Sys2Proof.Machine
end

