-- ==== Sys2Proof/Machine/SourceRequests.lean ====
section
/-! DEFINITION. The requests that name a source: READ_SOURCE (R23, R24), REARM (R10) and POST (R18, R19, R99 to
R105). -/

namespace Sys2Proof.Machine

/-- The source a byte names, if it is from 0 to 63. -/
def sourceOfByte (b : Byte) : Option SourceId := if h : b.toNat < 64 then some ⟨b.toNat, h⟩ else none

/-- READ_SOURCE as the source table takes it (R23, R24). -/
def takeReadSource (source : Byte) (s : State) : State × Answer :=
  match sourceOfByte source with
  | none => (s, Answer.bare .badValue)
  | some i => (s, Answer.okWith (sourceData i (s.source i) (s.sourceTicket i)))

/-- REARM as the source table takes it: the four steps of R10. -/
def takeRearm (h : HostId) (source : Byte) (s : State) : State × Answer :=
  match sourceOfByte source with
  | none => (s, Answer.bare .badValue)
  | some i =>
    if s.attached h = false then (s, Answer.bare .notAttached)
    else if hasHost (s.source i).config.hostSet h = false then (s, Answer.bare .denied)
    else if (s.source i).state ≠ .faulted then (s, Answer.bare .wrongState)
    else
      (recomputeAtn (levelCheck i (s.setSource i (rearmRuntime (s.source i)))), Answer.okWith [])

/-- Whether the post of `poster` may mark `h`: the poster only when echo is yes (R19, R105). -/
def postReaches (poster : HostId) (r : Source) (h : HostId) : Bool := r.config.echo || h != poster

/-- The reached set of a POST answer: each attached host of host_set, less the poster when echo is no (R101). -/
def reachedSet (s : State) (poster : HostId) (r : Source) : HostSet :=
  let on (h : HostId) : Bool := hasHost r.config.hostSet h && s.attached h && postReaches poster r h
  BitVec.ofBool (on 3) ++ BitVec.ofBool (on 2) ++ BitVec.ofBool (on 1) ++ BitVec.ofBool (on 0)

/-- A post to an ARMED posted source in ONE mode (R18, R101). -/
def postOne (i : SourceId) (argument : Word) (s : State) : State × Answer :=
  let r := s.source i
  if r.argQueue.length + s.heldArguments i < Config.queueCap then
    (recomputeAtn (s.setSource i { r with argQueue := r.argQueue ++ [argument] }),
      Answer.okWith [byteOf i.val, byteOf (r.argQueue.length + 1), boolByte (0 < s.heldArguments i)])
  else (s, Answer.bare .full)

/-- A post to an ARMED posted source in EACH mode: the mailbox, then the markers (R19, R101). -/
def postEach (poster : HostId) (i : SourceId) (argument : Word) (s : State) : State × Answer :=
  let r := s.source i
  (recomputeAtn (s.setSource i (markHosts s (postReaches poster r) { r with mailbox := argument })),
    Answer.okWith [byteOf i.val, hostSetByte (reachedSet s poster r)])

/-- POST as the post unit takes it: the six steps of R99. -/
def takePost (h : HostId) (source : Byte) (argument : Word) (s : State) : State × Answer :=
  match sourceOfByte source with
  | none => (s, Answer.bare .badValue)
  | some i =>
    match kindOf i with
    | .watch => (s, Answer.bare .badValue)
    | .notice => (s, Answer.bare .denied)
    | .posted =>
      if s.attached h = false then (s, Answer.bare .notAttached)
      else if hasHost (s.source i).config.posters h = false then (s, Answer.bare .denied)
      else if (s.source i).state ≠ .armed then (s, Answer.bare .wrongState)
      else match (s.source i).config.mode with
        | .one => postOne i argument s
        | .each => postEach h i argument s

def execReadSource (h : HostId) (source : Byte) (s : State) : Host.Outcome State Fault Refusal :=
  .next (request h 1 (fun x => answerRequest h (takeReadSource source x)) s)

def execRearm (h : HostId) (source : Byte) (s : State) : Host.Outcome State Fault Refusal :=
  .next (request h 1 (fun x => answerRequest h (takeRearm h source x)) s)

def execPost (h : HostId) (source : Byte) (argument : Word) (s : State) : Host.Outcome State Fault Refusal :=
  .next (request h 3 (fun x => answerRequest h (takePost h source argument x)) s)

end Sys2Proof.Machine
end

