-- ==== Sys2Proof/Machine/TicketRequests.lean ====
section
/-! DEFINITION. The commands the ticket table takes: DONE (R82), DEFER (R84), EXTEND (R86), READ_TICKETS (R77) and
the lease expiry (R87, R88). -/

namespace Sys2Proof.Machine

/-- The two checks of R79 before a request against a ticket acts. -/
def withTicket (h : HostId) (number : Word) (act : Ticket → State × Answer) (s : State) : State × Answer :=
  match s.findLive number with
  | none => (s, Answer.bare .stale)
  | some t => if t.host = h then act t else (s, Answer.bare .denied)

/-- What became of the work of an ended ticket, by the source's state when the end is taken (R82, R84). -/
def dispositionOf (s : State) (i : SourceId) (kept : Disposition) : Disposition :=
  if (s.source i).state = .armed then kept else .discarded

/-- The data of a DONE or DEFER answer (R82, R84, R163). -/
def endData (number : Word) (d : Disposition) : List Byte := wordBytes number ++ [d.code]

/-- DONE as the ticket table takes it (R79, R81, R82). -/
def takeDone (h : HostId) (number : Word) (s : State) : State × Answer :=
  withTicket h number
    (fun t => (recomputeAtn (endDone (slotOf number) t s),
      Answer.okWith (endData t.number (dispositionOf s t.source .consumed)))) s

/-- DEFER as the ticket table takes it (R79, R84). -/
def takeDefer (h : HostId) (number : Word) (s : State) : State × Answer :=
  withTicket h number
    (fun t => (recomputeAtn (endDefer (slotOf number) t s),
      Answer.okWith (endData t.number (dispositionOf s t.source .returned)))) s

/-- A ticket after an EXTEND that moves its deadline (R86). -/
def extendTicket (now : Millis) (t : Ticket) : Ticket :=
  { t with deadlineMs := some (msAfter now t.leaseMs), extensions := t.extensions + 1 }

/-- EXTEND against a ticket of the requester, in slot `k` (R86). -/
def extendLease (k : SlotId) (t : Ticket) (s : State) : State × Answer :=
  if t.leaseMs = 0 then (s, Answer.okWith (wordBytes t.number ++ [byteOf t.extensions]))
  else if t.extensions < Config.extendCap then
    (s.setSlot k { s.slot k with ticket := some (extendTicket s.now t) },
      Answer.okWith (wordBytes t.number ++ [byteOf (t.extensions + 1)] ++ wordOfNat t.leaseMs))
  else (s, Answer.bare .denied)

/-- EXTEND as the ticket table takes it (R79, R86). -/
def takeExtend (h : HostId) (number : Word) (s : State) : State × Answer :=
  withTicket h number (fun t => extendLease (slotOf number) t s) s

/-- The live tickets at slot `first` and above, with their slots, in slot order (R77). -/
def listedFrom (s : State) (first : Nat) : List (SlotId × Ticket) :=
  allSlots.filterMap fun k => if first ≤ k.val then (s.slot k).ticket.map fun t => (k, t) else none

/-- The code of next_slot: the lowest slot above the page, 0xFF where there is none (R77, R160). -/
def nextSlotByte : List (SlotId × Ticket) → Byte
  | [] => 0xFF
  | x :: _ => byteOf x.1.val

/-- READ_TICKETS as the ticket table takes it (R77, R78, R163). -/
def takeReadTickets (h : HostId) (firstSlot : Byte) (s : State) : State × Answer :=
  if 31 < firstSlot.toNat then (s, Answer.bare .badValue)
  else
    let listed := listedFrom s firstSlot.toNat
    let page := listed.take 3
    (s, Answer.okWith
      ([byteOf s.liveTotal, byteOf page.length, nextSlotByte (listed.drop 3)] ++
        page.flatMap fun x => ticketEntry s.now h x.2))

/-- The live ticket in slot `k` whose deadline is reached (R87). -/
def expiredIn (s : State) (k : SlotId) : Option Ticket :=
  match (s.slot k).ticket with
  | some t => match t.deadlineMs with
    | some d => if reachedMs s.now d then some t else none
    | none => none
  | none => none

def execDone (h : HostId) (number : Word) (s : State) : Host.Outcome State Fault Refusal :=
  .next (request h 2 (fun x => answerRequest h (takeDone h number x)) s)

def execDefer (h : HostId) (number : Word) (s : State) : Host.Outcome State Fault Refusal :=
  .next (request h 2 (fun x => answerRequest h (takeDefer h number x)) s)

def execExtend (h : HostId) (number : Word) (s : State) : Host.Outcome State Fault Refusal :=
  .next (request h 2 (fun x => answerRequest h (takeExtend h number x)) s)

def execReadTickets (h : HostId) (firstSlot : Byte) (s : State) : Host.Outcome State Fault Refusal :=
  .next (request h 1 (fun x => answerRequest h (takeReadTickets h firstSlot x)) s)

/-- LEASE_EXPIRY of the ticket in a slot: taken when the time base has reached its deadline (R87, R88). An expiry that
was withdrawn, by an end or an EXTEND taken first, does not happen (R93, R94). -/
def execLeaseExpiry (k : SlotId) (s : State) : Host.Outcome State Fault Refusal :=
  match expiredIn s k with
  | some t => .next (recomputeAtn (endExpired k t s))
  | none => .next s

end Sys2Proof.Machine
end

