-- ==== Sys2Proof/Machine/Windows.lean ====
section
/-! DEFINITION. What the port controllers take themselves: READ_STATUS (R158), request windows judged byte by byte
(R150, R151, R154) and answer reads (R155). -/

namespace Sys2Proof.Machine

/-- READ_STATUS as the port controller takes it (R158). -/
def takeReadStatus (s : State) : State × Answer := (s, Answer.okWith (statusData s))

def execReadStatus (h : HostId) (s : State) : Host.Outcome State Fault Refusal :=
  .next (request h 0 (fun x => answerRequest h (takeReadStatus x)) s)

/-- The request that a good frame spells, taken (R153). A command that is no request is spelled by no frame. -/
def execRequest (i : Instr) (s : State) : Host.Outcome State Fault Refusal :=
  match i with
  | .attach h m => execAttach h m s
  | .detach h => execDetach h s
  | .setMask h m => execSetMask h m s
  | .claim h c => execClaim h c s
  | .done h n => execDone h n s
  | .defer h n => execDefer h n s
  | .extend h n => execExtend h n s
  | .readTickets h n => execReadTickets h n s
  | .readSource h n => execReadSource h n s
  | .readStatus h => execReadStatus h s
  | .readLine h n => execReadLine h n s
  | .post h n a => execPost h n a s
  | .rearm h n => execRearm h n s
  | .faultTake h => execFaultTake h s
  | .faultPeek h => execFaultPeek h s
  | .editOpen h => execEditOpen h s
  | .editStage h k n r => execEditStage h k n r s
  | .editDrop h k n => execEditDrop h k n s
  | .editList h p => execEditList h p s
  | .editCommit h => execEditCommit h s
  | .editClose h => execEditClose h s
  | .claimTaken => .next s
  | .commitCompletion => .next s
  | .idleExpiry => .next s
  | .leaseExpiry _ => .next s
  | .hostRelease _ => .next s
  | .downDeassertion _ => .next s
  | .deviceReset => .next s
  | .startUpAcceptance _ => .next s
  | .rawChange _ _ => .next s
  | .settleExpiry _ => .next s
  | .frameRejected _ _ _ => .next s
  | .incompleteFrame _ _ _ => .next s
  | .frameWhileWorking _ => .next s
  | .answerRead _ _ => .next s

/-- A window opened by 0x5A on host `h`'s port, with the bytes and bits clocked in it: discarded, rejected or taken as
the request it spells, as the port judges the bytes (R148, R150, R151, R153, R154). -/
def requestWindow (h : HostId) (bytes : List Byte) (strayBits : Nat) (s : State) : Host.Outcome State Fault Refusal :=
  match judgeFrame bytes strayBits with
  | .incomplete => .next (dropFrame h bytes s)
  | .badFrame => .next (rejectFrame h bytes .badFrame s)
  | .unknown => .next (rejectFrame h bytes .unknown s)
  | .good code operands =>
    match decodeRequest h code operands with
    | some i => execRequest i s
    | none => .next s

/-- The first `count` bytes shifted out of a frame, then 0x00 for every further byte clocked (R148). -/
def shiftOut (frame : List Byte) (count : Nat) : List Byte :=
  frame.take count ++ List.replicate (count - frame.length) 0

/-- A port after an answer read of `count` bytes in ANSWERED: IDLE and empty if every byte of the answer was clocked
out, else as it was (R155). -/
def Port.readAnswer (p : Port) (count : Nat) : Port :=
  if p.answerBuffer.length ≤ count then
    { p with state := .idle, answerBuffer := [], shiftedOut := 0 :: shiftOut p.answerBuffer count }
  else { p with shiftedOut := 0 :: shiftOut p.answerBuffer count }

/-- A port that has put out a short answer, whose state it does not change (R155). -/
def Port.readShort (p : Port) (st : Status) (flags : Byte) (count : Nat) : Port :=
  { p with shiftedOut := 0 :: shiftOut (shortAnswer st flags) count }

/-- A window opened by 0xC3 on host `h`'s port, `count` bytes clocked after it (R148, R155): the held answer, or a short
WAIT or EMPTY answer; ignored where R148, R156 or R159 says so. A port cannot be RECEIVING when a window opens. -/
def readWindow (h : HostId) (count : Nat) (s : State) : State :=
  if windowIgnored s h then ignoreWindow h s
  else
    let p := s.port h
    match p.state with
    | .answered => s.setPort h (p.readAnswer count)
    | .working => s.setPort h (p.readShort .wait (shortFlags s h) count)
    | .idle => s.setPort h (p.readShort .empty (shortFlags s h) count)
    | .down => s
    | .receiving => s

/-- FRAME_REJECTED (R151). The window's bytes decide; bytes that pass every check are the request they spell. -/
def execFrameRejected (h : HostId) (bytes : List Byte) (strayBits : Nat) (s : State) :
    Host.Outcome State Fault Refusal := requestWindow h bytes strayBits s

/-- INCOMPLETE_FRAME (R150), and the windows that R148 ignores for want of a direction byte or for one that names no
window. The window's direction byte and bytes decide, as above. -/
def execIncompleteFrame (h : HostId) (window : Clocked) (strayBits : Nat) (s : State) :
    Host.Outcome State Fault Refusal :=
  match window.direction with
  | none => .next (ignoreWindow h s)
  | some d =>
    if d = requestDirection then requestWindow h window.bytes strayBits s
    else if d = answerDirection then .next (readWindow h window.bytes.length s)
    else .next (otherWindow h window.bytes.length s)

/-- FRAME_WHILE_WORKING (R154): refused becomes yes, the port stays WORKING. -/
def execFrameWhileWorking (w : PortWindow) (s : State) : Host.Outcome State Fault Refusal :=
  .next (workingWindow w.host w.count s)

/-- ANSWER_READ (R155). -/
def execAnswerRead (h : HostId) (count : Nat) (s : State) : Host.Outcome State Fault Refusal :=
  .next (readWindow h count s)

end Sys2Proof.Machine
end

