-- ==== Sys2Proof/Machine/Dispatch.lean ====
section
/-! DEFINITION. The dispatch: one arm for each command, each one call of its meaning. -/

namespace Sys2Proof.Machine

def exec (i : Instr) (s : State) : Host.Outcome State Fault Refusal :=
  match i with
  | .attach h mask => Sys2Proof.Machine.execAttach h mask s
  | .detach h => Sys2Proof.Machine.execDetach h s
  | .setMask h mask => Sys2Proof.Machine.execSetMask h mask s
  | .claim h laneChoice => Sys2Proof.Machine.execClaim h laneChoice s
  | .claimTaken => Sys2Proof.Machine.execClaimTaken s
  | .done h number => Sys2Proof.Machine.execDone h number s
  | .defer h number => Sys2Proof.Machine.execDefer h number s
  | .extend h number => Sys2Proof.Machine.execExtend h number s
  | .readTickets h firstSlot => Sys2Proof.Machine.execReadTickets h firstSlot s
  | .readSource h source => Sys2Proof.Machine.execReadSource h source s
  | .readStatus h => Sys2Proof.Machine.execReadStatus h s
  | .readLine h line => Sys2Proof.Machine.execReadLine h line s
  | .post h source argument => Sys2Proof.Machine.execPost h source argument s
  | .rearm h source => Sys2Proof.Machine.execRearm h source s
  | .faultTake h => Sys2Proof.Machine.execFaultTake h s
  | .faultPeek h => Sys2Proof.Machine.execFaultPeek h s
  | .editOpen h => Sys2Proof.Machine.execEditOpen h s
  | .editStage h kind number record => Sys2Proof.Machine.execEditStage h kind number record s
  | .editDrop h kind number => Sys2Proof.Machine.execEditDrop h kind number s
  | .editList h firstPosition => Sys2Proof.Machine.execEditList h firstPosition s
  | .editCommit h => Sys2Proof.Machine.execEditCommit h s
  | .commitCompletion => Sys2Proof.Machine.execCommitCompletion s
  | .editClose h => Sys2Proof.Machine.execEditClose h s
  | .idleExpiry => Sys2Proof.Machine.execIdleExpiry s
  | .leaseExpiry slot => Sys2Proof.Machine.execLeaseExpiry slot s
  | .hostRelease h => Sys2Proof.Machine.execHostRelease h s
  | .downDeassertion d => Sys2Proof.Machine.execDownDeassertion d s
  | .deviceReset => Sys2Proof.Machine.execDeviceReset s
  | .startUpAcceptance found => Sys2Proof.Machine.execStartUpAcceptance found s
  | .rawChange line level => Sys2Proof.Machine.execRawChange line level s
  | .settleExpiry line => Sys2Proof.Machine.execSettleExpiry line s
  | .frameRejected h bytes strayBits => Sys2Proof.Machine.execFrameRejected h bytes strayBits s
  | .incompleteFrame h window strayBits => Sys2Proof.Machine.execIncompleteFrame h window strayBits s
  | .frameWhileWorking w => Sys2Proof.Machine.execFrameWhileWorking w s
  | .answerRead h count => Sys2Proof.Machine.execAnswerRead h count s

end Sys2Proof.Machine
end

