-- ==== Sys2Proof/Machine/Time.lean ====
section
/-! DEFINITION. The passing of time: what the part does in one microsecond in which no command waits. The table of
commands has no row for a tick, so the tick stands in `step` in place of idling (assumption log 6). -/

namespace Sys2Proof.Machine

/-- The clocks one microsecond on: the time base advances by one each millisecond, from 4294967295 to 0 (R157). -/
def Clock.tick (c : Clock) : Clock :=
  if c.usOfMs < 999 then { ms := c.ms, us := c.us + 1, usOfMs := c.usOfMs + 1 }
  else { ms := c.ms + 1, us := c.us + 1, usOfMs := 0 }

/-- Whether a commit in flight has reached the latest moment of its completion (R134). -/
def commitDue (s : State) : Bool :=
  match s.edit.commitBoundUs with
  | some d => s.edit.commitInFlight && decide (d ≤ s.clock.us)
  | none => false

/-- The events of the part's own that are due: settle expiries, lease expiries, the idle expiry, a commit's completion
at its bound, and the taking of the claims that wait (R31, R57, R87, R128, R134). -/
def dueEvents (s : State) : List Instr :=
  (allLines.filter fun i => settleDue s i).map Instr.settleExpiry ++
  (allSlots.filter fun k => (expiredIn s k).isSome).map Instr.leaseExpiry ++
  (if (idleExpired s).isSome then [Instr.idleExpiry] else []) ++
  (if commitDue s then [Instr.commitCompletion] else []) ++
  (allHosts.filter fun h => (s.waitingClaim h).isSome).map fun _ => Instr.claimTaken

/-- One microsecond: the clocks advance, and the events due at the new moment join the queue, in a free order, since
the manual gives none (R59, R87; assumption log 3). During a reset the clocks stand still (R157). -/
def tick (s : State) : State :=
  if s.sampled then
    let s1 := s.setClock s.clock.tick
    let due := dueEvents s1
    (s1.setPending (s1.pending ++ freeOrder s1.drawn due)).setDrawn (s1.drawn + due.length)
  else s

end Sys2Proof.Machine
end

