-- ==== Sys2Proof/Safety.lean ====
section
/-! DEFINITION. What counts as a well-kept state: the relations between records that the manual states, one definition
for each block, and `Inv`, all of them together. A claim about every state that could fail only in states no run
reaches takes the part of `Inv` it needs as its premise. -/

namespace Sys2Proof.Safety

open Sys2Proof.Machine

/-! ## The ticket table -/

/-- A live ticket's record agrees with its slot and holds its fields in range (R65, R66, R68). -/
def TicketKept (s : State) (k : SlotId) (t : Ticket) : Prop :=
  (s.slot k).sequence ≠ 0 ∧ t.number = ticketNumber (s.slot k).sequence k ∧
  1 ≤ t.coveredCount ∧ t.coveredCount ≤ 15 ∧
  t.argument.isSome = (kindOf t.source == .posted) ∧
  1 ≤ t.attempt ∧ t.attempt ≤ 8 ∧ t.extensions ≤ 15 ∧ t.leaseMs ≤ 60000 ∧
  t.deadlineMs.isSome = (t.leaseMs != 0)

/-- Every live ticket's record is kept, its host is attached (R111), and a ticket that stands for one occurrence by its
source's kind and mode covers one (R72, R73, R74). -/
def TicketsKept (s : State) : Prop :=
  ∀ k : SlotId, ∀ t ∈ (s.slot k).ticket,
    TicketKept s k t ∧ s.attached t.host = true ∧
    ((kindOf t.source = .posted ∨ (s.source t.source).config.mode = .each) → t.coveredCount = 1)

/-- A ONE-mode source has at most one live ticket, and an EACH-mode source at most one for each host (R69). -/
def TicketsUnique (s : State) : Prop :=
  ∀ k j : SlotId, ∀ t ∈ (s.slot k).ticket, ∀ u ∈ (s.slot j).ticket,
    t.source = u.source → ((s.source t.source).config.mode = .one ∨ t.host = u.host) → k = j

/-- No host holds more than 4 live tickets in one lane (R41). -/
def CreditsKept (s : State) : Prop := ∀ h : HostId, ∀ k : LaneId, s.liveCount h k ≤ 4

/-! ## The source table -/

/-- A source's configuration is one that a commit can have written: its kind's, in range, and enabled exactly while it
is not OFF (R2, R5, R129). -/
def ConfigKept (i : SourceId) (r : Source) : Prop :=
  configFor i r.config = r.config ∧ validSource i r.config = true ∧ (r.config.enabled = true ↔ r.state ≠ .off)

/-- The runtime fields that do not apply to a source hold their reset values (R3), and the others their ranges. -/
def RuntimeKept (i : SourceId) (r : Source) : Prop :=
  (r.config.mode = .one →
    (∀ h : HostId, r.markerOf h = .clear ∧ r.attemptsOf h = 0) ∧ r.mailbox = 0) ∧
  (r.config.mode = .each → r.attempts = 0 ∧ r.argQueue = [] ∧ r.pendingCount = 0 ∧ r.overflowMark = false) ∧
  (kindOf i = .posted → r.pendingCount = 0 ∧ r.overflowMark = false) ∧
  (kindOf i ≠ .posted → r.argQueue = [] ∧ r.mailbox = 0) ∧
  r.attempts ≤ 7 ∧ ∀ h : HostId, r.attemptsOf h ≤ 7

/-- A source in OFF or FAULTED has no waiting work (R5), one in OFF no attempt counted (R7, R89), and S63 is never
FAULTED (R8, R92). -/
def StateKept (i : SourceId) (r : Source) : Prop :=
  (r.state ≠ .armed →
    r.pendingCount = 0 ∧ r.overflowMark = false ∧ r.argQueue = [] ∧
      ∀ h : HostId, r.markerOf h = .clear ∨ r.markerOf h = .held) ∧
  (r.state = .off → r.attempts = 0 ∧ ∀ h : HostId, r.attemptsOf h = 0) ∧
  (i = noticeSource → r.state ≠ .faulted)

/-- Nothing is owed to a host that host_set does not contain (R9). -/
def OwedInHostSet (r : Source) : Prop :=
  ∀ h : HostId, hasHost r.config.hostSet h = false → r.markerOf h = .clear ∨ r.markerOf h = .held

/-- A marker of an EACH-mode source is HELD or HELD_OWED exactly while its host holds a live ticket of it (R21). -/
def MarkersAgree (s : State) : Prop :=
  ∀ i : SourceId, (s.source i).config.mode = .each →
    ∀ h : HostId, ((s.source i).markerOf h).isHeld = s.holds i h

/-- The cap of a counted source: pending_count plus the covered_count of its live ticket is at most 15 (R12), and at
most 1 for a level source (R15). -/
def CountsCapped (s : State) : Prop :=
  ∀ i : SourceId, (s.source i).config.mode = .one → kindOf i ≠ .posted →
    (s.source i).pendingCount + s.coveredBy i ≤ 15 ∧
    ((s.source i).config.trigger.isEdge = false → (s.source i).pendingCount + s.coveredBy i ≤ 1)

/-- The cap of a posted ONE-mode source: its queue and the argument of its live ticket are at most 4 (R18). -/
def QueuesCapped (s : State) : Prop :=
  ∀ i : SourceId, (s.source i).config.mode = .one → kindOf i = .posted →
    (s.source i).argQueue.length + s.heldArguments i ≤ 4

/-- Every source's records are kept. -/
def SourcesKept (s : State) : Prop :=
  ∀ i : SourceId, ConfigKept i (s.source i) ∧ RuntimeKept i (s.source i) ∧ StateKept i (s.source i) ∧
    OwedInHostSet (s.source i)

/-! ## Lanes, lines, hosts -/

/-- Every credit_limit is 1 to 4 (R39). -/
def LimitsKept (s : State) : Prop := ∀ k : LaneId, 1 ≤ s.creditLimit k ∧ s.creditLimit k ≤ 4

/-- A line settles exactly while its raw level differs from its accepted one, its deadline lies at most 1020
microseconds ahead, and its settle_us is 0 to 1020 in steps of 4 (R25, R26). No line settles before its first sample
(R34). -/
def LineKept (s : State) (l : Line) : Prop :=
  l.settling = (l.rawLevel != l.acceptedLevel) ∧ (∀ d ∈ l.settleDeadline, d ≤ s.clock.us + 1020) ∧
  l.settleUs ≤ 1020 ∧ l.settleUs % 4 = 0 ∧ (s.sampled = false → l.settling = false)

def LinesKept (s : State) : Prop := ∀ i : LineId, LineKept s (s.line i)

/-- A host that is not attached admits no lane, shows no session, and is owed nothing by any source (R111, R112,
R119). -/
def DetachedKept (s : State) : Prop :=
  ∀ h : HostId, s.attached h = false →
    (s.host h).laneMask = 0 ∧ (s.host h).editState = .none ∧ ∀ i : SourceId, (s.source i).markerOf h = .clear

/-- Each ATN output has the level that R49 gives it. -/
def AtnKept (s : State) : Prop := ∀ h : HostId, s.atnOf h = atnLevel s h

/-- During a reset, until the lines have their first sample, every block holds its reset values, and every port is IDLE
or in DOWN (R159). -/
def ResetHeld (s : State) : Prop :=
  s.sampled = false →
    s = { State.reset with ports := s.ports, drawn := s.drawn, pending := s.pending } ∧
      ∀ h : HostId, (s.port h).state = .idle ∨ (s.port h).state = .down

/-! ## The edit unit -/

/-- A staged entry is one that passed the validation of R129. -/
def StagedEntry.Valid : StagedEntry → Prop
  | .source n c => validSource n c = true
  | .lane _ limit => validCredit limit = true
  | .line _ us => validSettle us = true

/-- What edit_state shows of the edit unit for host `h` (R111, R124). -/
def editStateOf (e : EditUnit) (h : HostId) : EditState :=
  if e.holder = some h then (if e.commitInFlight then .commit else .session) else .none

/-- The edit unit's fields agree: an empty list, no deadline and no commit without a holder; an idle deadline exactly
while there is a holder and no commit in flight; at most 16 entries, each valid, one for a target; the holder attached;
every host record showing the same (R111, R124, R125). -/
def EditKept (s : State) : Prop :=
  (s.edit.holder = none → s.edit.staged = [] ∧ s.edit.commitInFlight = false) ∧
  s.edit.idleDeadline.isSome = (s.edit.holder.isSome && !s.edit.commitInFlight) ∧
  s.edit.commitBoundUs.isSome = s.edit.commitInFlight ∧
  s.edit.staged.length ≤ 16 ∧ (s.edit.staged.map StagedEntry.target).Nodup ∧
  (∀ e ∈ s.edit.staged, StagedEntry.Valid e) ∧
  (∀ h ∈ s.edit.holder, s.attached h = true) ∧
  ∀ h : HostId, (s.host h).editState = editStateOf s.edit h

/-! ## The fault queue -/

/-- The records' seq values run one by one, in the counting of R142, up to the next one to be given, and none is 0
(R140). -/
def seqRun : List FaultRecord → Word → Prop
  | [], _ => True
  | [r], next => r.seq ≠ 0 ∧ advanceSeq r.seq = next
  | r :: q :: rest, next => r.seq ≠ 0 ∧ advanceSeq r.seq = q.seq ∧ seqRun (q :: rest) next

/-- The fault queue holds at most 16 records with their seq values in order, and the next seq is never 0 (R140). -/
def FaultsKept (s : State) : Prop :=
  s.faults.records.length ≤ 16 ∧ s.faults.nextSeq ≠ 0 ∧ seqRun s.faults.records s.faults.nextSeq

/-! ## The ports and the arbiter -/

/-- A port is WORKING exactly while its host's claim waits or its host's commit is in flight, and never for both
(R57, R134, R149); it holds an answer exactly in ANSWERED; its flags are set only while it is WORKING; a window is
never half received between two commands; a port that ignores a window to its end is IDLE; and a port in DOWN has a
detached host (R52, R117). That WORKING is for a claim or a commit alone is assumption log 14, that no port is found
RECEIVING assumption log 8. -/
def PortKept (s : State) (h : HostId) : Prop :=
  let p := s.port h
  let claiming := (s.waitingClaim h).isSome
  let committing := s.edit.holder == some h && s.edit.commitInFlight
  (p.state == .working) = (claiming || committing) ∧ (claiming && committing) = false ∧
  (p.answerBuffer ≠ [] ↔ p.state = .answered) ∧
  ((p.prevUnread = true ∨ p.refused = true) → p.state = .working) ∧
  (p.ignoring = true → p.state = .idle) ∧ p.state ≠ .receiving ∧ p.priorState = none ∧ p.receiveBuffer = [] ∧
  (p.state = .down → s.attached h = false)

def PortsKept (s : State) : Prop := ∀ h : HostId, PortKept s h

/-! ## The clocks -/

/-- The time base counts the milliseconds of the microsecond clock, modulo 2^32 (R25, R157). -/
def ClockKept (s : State) : Prop :=
  s.clock.usOfMs = s.clock.us % 1000 ∧ s.clock.ms = BitVec.ofNat 32 (s.clock.us / 1000)

/-! ## All of it -/

/-- The relations between the part's records that every step keeps. They are the manual's but for the model's own: the
levels of a line that has had no sample (assumption log 4), the agreement of the clocks and usOfMs (logs 6 and 11),
commitBoundUs (log 7), no port found RECEIVING (log 8), WORKING for a claim or a commit alone (log 14), the markers of a
ONE-mode source (log 12), and what holds until START_UP_ACCEPTANCE (log 13). -/
structure Inv (s : State) : Prop where
  tickets : TicketsKept s
  unique : TicketsUnique s
  credits : CreditsKept s
  sources : SourcesKept s
  markers : MarkersAgree s
  counts : CountsCapped s
  queues : QueuesCapped s
  limits : LimitsKept s
  lines : LinesKept s
  detached : DetachedKept s
  atn : AtnKept s
  edit : EditKept s
  faults : FaultsKept s
  ports : PortsKept s
  clock : ClockKept s
  held : ResetHeld s

/-- A run from reset: every state that steps lead to, commands being put at the end of the queue between steps. -/
inductive Reachable : State → Prop where
  | reset : Reachable State.reset
  | command (s : State) (c : Instr) : Reachable s → Reachable (s.setPending (s.pending ++ [c]))
  | step (s t : State) : Reachable s → step s = .next t → Reachable t

end Sys2Proof.Safety
end

