-- ==== Sys2Proof/WellFormed.lean ====
section
/-! DEFINITION. The commands that spell what their row says: an EDIT_STAGE whose operands have a length R161 admits,
a rejected window that R151 rejects, an incomplete window that R150 finds incomplete. A command that is not well
formed still has its effect: the port judges the bytes it was given. -/

namespace Sys2Proof

/-- The stray bits of a window are fewer than a byte (R150: any part of a byte). -/
def strayBitsOk (strayBits : Nat) : Bool := strayBits < 8

/-- R151: the window holds a complete or overlong frame that fails a check. -/
def windowRejected (bytes : List Byte) (strayBits : Nat) : Bool :=
  match judgeFrame bytes strayBits with
  | .badFrame => true
  | .unknown => true
  | _ => false

/-- R150: the window ended before its frame was complete. -/
def windowIncomplete (bytes : List Byte) (strayBits : Nat) : Bool :=
  judgeFrame bytes strayBits == .incomplete

/-- A window in which no request frame is completed: without a direction byte (and so without bytes after it), opened
by 0x5A and incomplete (R150), or opened by a byte that names no window (R148). One opened by 0xC3 is an ANSWER_READ. -/
def windowUncompleted (window : Clocked) (strayBits : Nat) : Bool :=
  match window.direction with
  | none => window.bytes.isEmpty
  | some d => if d = requestDirection then windowIncomplete window.bytes strayBits else d != answerDirection

/-- A command that spells what its row of the table says. -/
def Instr.wellFormed (i : Instr) : Bool :=
  match i with
  | .editStage _ kind number record => stageLengthAllowed (kind :: number :: record)
  | .frameRejected _ bytes stray => strayBitsOk stray && windowRejected bytes stray
  | .incompleteFrame _ window stray => strayBitsOk stray && windowUncompleted window stray
  | .attach _ _ => true
  | .detach _ => true
  | .setMask _ _ => true
  | .claim _ _ => true
  | .claimTaken => true
  | .done _ _ => true
  | .defer _ _ => true
  | .extend _ _ => true
  | .readTickets _ _ => true
  | .readSource _ _ => true
  | .readStatus _ => true
  | .readLine _ _ => true
  | .post _ _ _ => true
  | .rearm _ _ => true
  | .faultTake _ => true
  | .faultPeek _ => true
  | .editOpen _ => true
  | .editDrop _ _ _ => true
  | .editList _ _ => true
  | .editCommit _ => true
  | .commitCompletion => true
  | .editClose _ => true
  | .idleExpiry => true
  | .leaseExpiry _ => true
  | .hostRelease _ => true
  | .downDeassertion _ => true
  | .deviceReset => true
  | .startUpAcceptance _ => true
  | .rawChange _ _ => true
  | .settleExpiry _ => true
  | .frameWhileWorking _ => true
  | .answerRead _ _ => true

end Sys2Proof
end

