-- ==== Sys2Proof/Certificates/Slice0/Obligations.lean ====
section
/-! DEFINITION. The statements for the provers. First, in `Sys2Proof.Stated`, the words they are written in: what the
manual's rules say of one record, one port or one answer, written from the rules and not from the model's operations. -/

namespace Sys2Proof.Stated

open Sys2Proof.Machine Sys2Proof.Safety

/-! ## Ports and answers -/

/-- The next window on the port of `h` is not ignored to its end: no reset lasts (R159), and no window was open when the
port last left DOWN or a reset last ended (R156, R159; the fields that say so are the model's, assumption logs 13 and
16). -/
def Listens (s : State) (h : HostId) : Prop := s.sampled = true ∧ (s.port h).ignoring = false

/-- The port of `h` can take a request window: it listens, and is IDLE or ANSWERED (R148). -/
def Ready (s : State) (h : HostId) : Prop :=
  Listens s h ∧ ((s.port h).state = .idle ∨ (s.port h).state = .answered)

/-- The whole bytes clocked after the direction byte in the window of command `c`: a request's code, length, operands
and check byte (R161), and those that a window of bytes is given. -/
def windowBytes (c : Instr) : Nat :=
  match c with
  | .frameRejected _ bytes _ => bytes.length
  | .incompleteFrame _ window _ => window.bytes.length
  | .frameWhileWorking w => w.count
  | c => (requestParts c).elim 0 fun p => p.2.2.length + 3

/-- R148: 0x00 is put out during the direction byte and during every byte of the request window of `c`. The bytes put
out are kept in the model's own field `shiftedOut` (assumption log 10). -/
def zerosOut (c : Instr) : List Byte := List.replicate (windowBytes c + 1) 0

/-- PREV_UNREAD of the next answer of a port that takes a request now: set already, or by the answer now unread
(R151). -/
def unread (s : State) (h : HostId) : Bool := (s.port h).prevUnread || (s.port h).state == .answered

/-- A port that has formed answer `a` (R153, R162), with `out` as what it last put out. -/
def answeredPort (p : Port) (a : Answer) (atn attached prevUnread : Bool) (out : List Byte) : Port :=
  { state := .answered, priorState := none, receiveBuffer := []
    answerBuffer := answerFrame a (flagsByte atn attached prevUnread p.refused)
    prevUnread := false, refused := false, ignoring := p.ignoring, shiftedOut := out }

/-- The request window of command `c` on `h`'s port led from `s` to `t` and was answered `a`, with the flags of R153;
every other port is as it was. -/
def Answers (c : Instr) (h : HostId) (a : Answer) (s t : State) : Prop :=
  t.port h = answeredPort (s.port h) a (t.atnOf h) (t.attached h) (unread s h) (zerosOut c) ∧
    ∀ x, x ≠ h → t.port x = s.port x

/-- The same for a request that was passed on before and whose answer is formed now: a claim or a commit (R153). -/
def AnswersWaiting (h : HostId) (a : Answer) (s t : State) : Prop :=
  t.port h =
      answeredPort (s.port h) a (t.atnOf h) (t.attached h) (s.port h).prevUnread (s.port h).shiftedOut ∧
    ∀ x, x ≠ h → t.port x = s.port x

/-- The port after the good frame of command `c` is passed on and waits (R148, R151, R153). -/
def workingPort (c : Instr) (p : Port) : Port :=
  { p with
    state := .working, priorState := none, receiveBuffer := []
    answerBuffer := if p.state = .answered then [] else p.answerBuffer
    prevUnread := p.prevUnread || p.state == .answered
    shiftedOut := zerosOut c }

/-- A taken request of `h` leaves the edit unit as it was, but for the idle deadline of a session that `h` holds
(R127). -/
def Restarted (h : HostId) (s t : State) : Prop :=
  t.edit =
    if s.edit.holder = some h ∧ s.edit.commitInFlight = false then { s.edit with idleDeadline := some (s.now + 250) }
    else s.edit

/-- Every ATN output shows the level of R49. -/
def AtnShown (t : State) : Prop := ∀ x : HostId, t.atnOf x = atnLevel t x

/-- The request does nothing but receive answer `a`: no table, queue, marker or output changes; the port forms the
answer and a session's idle deadline restarts. -/
def OnlyAnswers (c : Instr) (h : HostId) (a : Answer) (s : State) : Prop :=
  ∃ t, exec c s = .next t ∧ t = { s with ports := t.ports, edit := t.edit } ∧ Restarted h s t ∧ Answers c h a s t

/-- `h` holds the edit session and no commit is in flight. -/
def Holds (s : State) (h : HostId) : Prop := s.edit.holder = some h ∧ s.edit.commitInFlight = false

/-! ## One source record -/

/-- The level of a level source is active (section 1.3.4, R33). -/
def levelHolds (s : State) (c : SourceConfig) : Bool :=
  match c.trigger with
  | .high => (s.line c.line).acceptedLevel
  | .low => !(s.line c.line).acceptedLevel
  | _ => false

/-- R15 and R16: the record `r` of source `i` after its level check, `live` saying whether the source has a live
ticket. -/
def checked (s : State) (live : Bool) (i : SourceId) (r : Source) : Source :=
  if r.state = .armed ∧ kindOf i = .watch ∧ levelHolds s r.config = true then
    match r.config.mode with
    | .one => if r.pendingCount = 0 ∧ live = false then { r with pendingCount := 1 } else r
    | .each =>
      { r with
        marker := Vector.ofFn fun x : HostId =>
          if hasHost r.config.hostSet x && s.attached x && r.markerOf x == .clear then .owed else r.markerOf x }
  else r

/-- R14: a marker that an occurrence marks. -/
def marked : Marker → Marker
  | .clear => .owed
  | .owed => .owed
  | .held => .heldOwed
  | .heldOwed => .heldOwed

/-- R14 and R19: the record after an occurrence marks the attached hosts of host_set that `also` admits. -/
def markedBy (s : State) (also : HostId → Bool) (r : Source) : Source :=
  { r with
    marker := Vector.ofFn fun x : HostId =>
      if hasHost r.config.hostSet x && s.attached x && also x then marked (r.markerOf x) else r.markerOf x }

/-- R12 and R13: the record after an occurrence is counted or lost, `covered` being what its live ticket covers. -/
def counted (covered : Nat) (r : Source) : Source :=
  if r.pendingCount + covered < 15 then { r with pendingCount := r.pendingCount + 1 } else { r with overflowMark := true }

/-- R20: S63 after one notice. -/
def noticed (s : State) (r : Source) : Source :=
  if r.state = .armed then
    match r.config.mode with
    | .one => counted (s.coveredBy 63) r
    | .each => markedBy s (fun _ => true) r
  else r

/-- R142: the fault queue after a store. -/
def stored (q : FaultQueue) (now : Millis) (cause : FaultCause) : FaultQueue :=
  { records :=
      (if q.records.length < 16 then q.records else q.records.drop 1) ++
        [{ seq := q.nextSeq, timeMs := now, cause := cause, gap := !decide (q.records.length < 16) }]
    nextSeq := if q.nextSeq = 65535 then 1 else q.nextSeq + 1 }

/-- A slot other than `k` holds a live ticket of source `i`. -/
def otherLive (s : State) (k : SlotId) (i : SourceId) : Bool :=
  allSlots.any fun j => j != k && (s.slot j).ticket.any fun u => u.source == i

/-- R81: the record after a ticket of `h` is completed. -/
def consumed (h : HostId) (r : Source) : Source :=
  match r.config.mode with
  | .one => { r with attempts := 0 }
  | .each =>
    { r with
      marker := r.marker.set h
        (match r.markerOf h with
        | .held => .clear
        | .heldOwed => .owed
        | .clear => .clear
        | .owed => .owed)
      attemptsPerHost := r.attemptsPerHost.set h 0 }

/-- R83: the record after the work of ticket `t` is returned. -/
def returned (t : Ticket) (r : Source) : Source :=
  match r.config.mode with
  | .one =>
    if kindOf t.source = .posted then { r with argQueue := t.argument.toList ++ r.argQueue }
    else { r with pendingCount := r.pendingCount + t.coveredCount }
  | .each => { r with marker := r.marker.set t.host (if hasHost r.config.hostSet t.host then .owed else .clear) }

/-- R85: the record after the work of a ticket of `h` is discarded. -/
def discarded (h : HostId) (r : Source) : Source :=
  match r.config.mode with
  | .one => r
  | .each => { r with marker := r.marker.set h .clear }

/-- R88, step 2: the record after the expiry of a ticket of `h` counts its attempt. -/
def attempted (h : HostId) (r : Source) : Source :=
  match r.config.mode with
  | .one => { r with attempts := min 7 (r.attempts + 1) }
  | .each =>
    if hasHost r.config.hostSet h then { r with attemptsPerHost := r.attemptsPerHost.set h (min 7 (r.attemptsOf h + 1)) }
    else r

/-- The attempt count of the work of `h` (R89). -/
def countOf (h : HostId) (r : Source) : Nat :=
  match r.config.mode with
  | .one => r.attempts
  | .each => r.attemptsOf h

/-- R90: the expiry of a ticket of `h` abandons source `i`, whose count it has raised in `r`. -/
def reachesLimit (i : SourceId) (h : HostId) (r : Source) : Bool :=
  i != 63 && r.config.retryLimit != 0 && (r.config.mode == .one || hasHost r.config.hostSet h) &&
    countOf h r == r.config.retryLimit.val

/-- What is owed goes, what is held stays (R7, R8, R9). -/
def unowed : Marker → Marker
  | .clear => .clear
  | .owed => .clear
  | .held => .held
  | .heldOwed => .held

/-- The record with its waiting work discarded (R7, R8). -/
def emptied (r : Source) : Source :=
  { r with
    pendingCount := 0, overflowMark := false, argQueue := []
    marker := Vector.ofFn fun x : HostId => unowed (r.markerOf x) }

/-! ## Claims -/

/-- The code `b` of CLAIM names the choice (R160). -/
def Names (b : Byte) : LaneChoice → Prop
  | .any => b = 0xFF
  | .lane k => b = BitVec.ofNat 8 k.val

/-- The choice allows lane `k` (R56). -/
def Allows (k : LaneId) : LaneChoice → Prop
  | .any => True
  | .lane j => k = j

/-- The waiting claim of `h`, with lane_choice `b`, is the first in the rotation of R58. -/
def IsNext (s : State) (h : HostId) (b : Byte) : Prop :=
  s.waitingClaim h = some b ∧
    ∀ x : HostId, (s.waitingClaim x).isSome = true → (h - (s.rotation + 1)).val ≤ (x - (s.rotation + 1)).val

/-- Source `i` comes before source `j` in the order of R61: lane, then rank, then number. -/
def Before (s : State) (i j : SourceId) : Prop :=
  (s.source i).config.lane < (s.source j).config.lane ∨
    ((s.source i).config.lane = (s.source j).config.lane ∧
      ((s.source i).config.rank < (s.source j).config.rank ∨
        ((s.source i).config.rank = (s.source j).config.rank ∧ i ≤ j)))

/-- Source `i` is the one R61 selects for a claim of `h`. -/
def Best (s : State) (h : HostId) (c : LaneChoice) (i : SourceId) : Prop :=
  (deliverable s i h = true ∧ Allows (s.source i).config.lane c) ∧
    ∀ j : SourceId, deliverable s j h = true → Allows (s.source j).config.lane c → Before s i j

/-- Nothing is deliverable to `h` in the lanes the choice allows (R63). -/
def NothingFor (s : State) (h : HostId) (c : LaneChoice) : Prop :=
  ∀ j : SourceId, deliverable s j h = true → ¬ Allows (s.source j).config.lane c

/-- R68 to R75: the ticket issued to `h` of source `i` in slot `k` with sequence `q`. -/
def issued (s : State) (h : HostId) (i : SourceId) (k : SlotId) (q : BitVec 11) : Ticket :=
  let r := s.source i
  { number := BitVec.ofNat 16 (q.toNat * 32 + k.val)
    host := h
    source := i
    lane := r.config.lane
    handle := r.config.handle
    coveredCount := if r.config.mode = .one ∧ kindOf i ≠ .posted then r.pendingCount else 1
    argument :=
      if kindOf i = .posted then (if r.config.mode = .one then r.argQueue.head? else some r.mailbox) else none
    attempt := (if r.config.mode = .one then r.attempts else r.attemptsOf h) + 1
    issuedMs := s.now
    leaseMs := r.config.leaseMs
    deadlineMs := if 0 < r.config.leaseMs then some (s.now + BitVec.ofNat 32 r.config.leaseMs) else none
    extensions := 0 }

/-- R70 to R74: the source record after the issue. -/
def taken (h : HostId) (i : SourceId) (r : Source) : Source :=
  match r.config.mode with
  | .one =>
    if kindOf i = .posted then { r with argQueue := r.argQueue.tail }
    else { r with pendingCount := 0, overflowMark := false }
  | .each => { r with marker := r.marker.set h .held }

/-- The data of an OK answer to CLAIM (R163). -/
def claimBytes (t : Ticket) : List Byte :=
  wordBytes t.number ++ [BitVec.ofNat 8 t.source.val] ++ wordBytes t.handle ++
    [BitVec.ofNat 8 t.lane.val, BitVec.ofNat 8 t.coveredCount, BitVec.ofNat 8 t.attempt] ++
    wordBytes (BitVec.ofNat 16 t.leaseMs) ++ t.argument.elim [] wordBytes

/-! ## Bytes -/

/-- A 16-bit number as two bytes, the most significant first (R160). -/
def twoBytes (n : Nat) : List Byte := [BitVec.ofNat 8 (n / 256), BitVec.ofNat 8 (n % 256)]

/-- The code of a trigger (R160). -/
def triggerCode : Trigger → Nat
  | .rise => 0
  | .fall => 1
  | .both => 2
  | .high => 3
  | .low => 4

/-- The source configuration block, byte by byte from R161's table: enabled in bit 0, mode in bit 1 and echo in bit 2 of
byte 0; lane from bit 4 and rank from bit 0 of byte 1; posters from bit 4 and host_set from bit 0 of byte 2; handle in
bytes 3 and 4; lease_ms in bytes 5 and 6; retry_limit from bit 4 and trigger from bit 0 of byte 7; line in byte 8. -/
def configBytes (c : SourceConfig) : List Byte :=
  [ BitVec.ofNat 8
      ((if c.enabled then 1 else 0) + (if c.mode = .each then 2 else 0) + (if c.echo then 4 else 0)),
    BitVec.ofNat 8 (c.lane.val * 16 + c.rank.val),
    BitVec.ofNat 8 (c.posters.toNat * 16 + c.hostSet.toNat) ] ++
    twoBytes c.handle.toNat ++ twoBytes c.leaseMs ++
    [BitVec.ofNat 8 (c.retryLimit.val * 16 + triggerCode c.trigger), BitVec.ofNat 8 c.line.val]

/-- The requests of R161's table whose operands have one length: code and length. EDIT_STAGE, 0x61, is the other. -/
def requestTable : List (Byte × Nat) :=
  [(0x10, 1), (0x11, 0), (0x12, 1), (0x20, 1), (0x21, 2), (0x22, 2), (0x23, 2), (0x30, 1), (0x31, 0), (0x32, 1),
    (0x33, 1), (0x40, 3), (0x41, 1), (0x50, 0), (0x51, 0), (0x60, 0), (0x62, 2), (0x63, 1), (0x64, 0), (0x65, 0)]

/-- The operands of EDIT_STAGE have a length R161 admits: 11 for SOURCE, 3 for LANE, 4 for LINE, any of the three where
the target kind byte names no kind. -/
def StageLength (operands : List Byte) : Prop :=
  ∃ kind rest, operands = kind :: rest ∧
    ((kind = 0 ∧ operands.length = 11) ∨ (kind = 1 ∧ operands.length = 3) ∨ (kind = 2 ∧ operands.length = 4) ∨
      (2 < kind.toNat ∧ (operands.length = 3 ∨ operands.length = 4 ∨ operands.length = 11)))

/-- The code byte names a request (R161). -/
def NamesRequest (code : Byte) : Prop := code = 0x61 ∨ ∃ n, (code, n) ∈ requestTable

/-- The operands have a length that R161 allows for the code. -/
def LengthAllowed (code : Byte) (operands : List Byte) : Prop :=
  (code = 0x61 ∧ StageLength operands) ∨ (code, operands.length) ∈ requestTable

/-- The request frame of a code and its operands: code, length, operands and the check byte over them (R152, R161). -/
def frameOf (code : Byte) (operands : List Byte) : List Byte :=
  let covered := code :: BitVec.ofNat 8 operands.length :: operands
  covered ++ [crc8 covered]

/-- `c` is a window on `h`'s port opened by 0x5A, in which these whole bytes and, after the last of them, `e` bits are
clocked; both commands that carry such a window's bytes leave the judging to the port (assumption log 8). -/
def OpensRequest (c : Instr) (h : HostId) (bytes : List Byte) (e : Nat) : Prop :=
  c = .frameRejected h bytes e ∨ c = .incompleteFrame h { direction := some 0x5A, bytes := bytes } e

/-- A host set as one byte (R160). -/
def hostBits (p : HostId → Bool) : Byte :=
  (if p 0 then 1 else 0) + (if p 1 then 2 else 0) + (if p 2 then 4 else 0) + (if p 3 then 8 else 0)

/-- One entry of READ_TICKETS (R163). -/
def entryBytes (now : Millis) (h : HostId) (t : Ticket) : List Byte :=
  wordBytes t.number ++ [BitVec.ofNat 8 (t.host.val * 16 + t.lane.val), BitVec.ofNat 8 t.source.val] ++
    wordBytes t.handle ++ [BitVec.ofNat 8 t.coveredCount, BitVec.ofNat 8 (t.attempt * 16 + t.extensions)] ++
    millisBytes t.issuedMs ++ wordBytes (BitVec.ofNat 16 t.leaseMs) ++
    (t.deadlineMs.elim [] fun d => wordBytes (BitVec.ofNat 16 (if reachedMs now d then 0 else (d - now).toNat))) ++
    (if t.host = h then t.argument.elim [] wordBytes else [])

/-- A fault record (R164). -/
def faultBytes (r : FaultRecord) : List Byte :=
  let head (n k : Nat) : List Byte :=
    [BitVec.ofNat 8 n] ++ wordBytes r.seq ++ [BitVec.ofNat 8 (k + if r.gap then 128 else 0)] ++ millisBytes r.timeMs
  match r.cause with
  | .abandoned i none n count => head 13 1 ++ [0, BitVec.ofNat 8 count, BitVec.ofNat 8 i.val] ++ wordBytes n
  | .abandoned i (some h) n count =>
    head 14 1 ++ [0, BitVec.ofNat 8 count, BitVec.ofNat 8 i.val] ++ wordBytes n ++ [BitVec.ofNat 8 h.val]
  | .overflow i => head 11 2 ++ [0, 0, BitVec.ofNat 8 i.val]
  | .hostLost h tickets session =>
    head 11 3 ++ [BitVec.ofNat 8 tickets, if session then 1 else 0, BitVec.ofNat 8 h.val]
  | .editExpired h => head 11 4 ++ [0, 0, BitVec.ofNat 8 h.val]

/-- The kind byte, the number byte and the record bytes of a staged entry (R161). -/
def entryKind : StagedEntry → Byte
  | .source _ _ => 0
  | .lane _ _ => 1
  | .line _ _ => 2

def entryNumber : StagedEntry → Byte
  | .source n _ => BitVec.ofNat 8 n.val
  | .lane k _ => BitVec.ofNat 8 k.val
  | .line i _ => BitVec.ofNat 8 i.val

def entryRecord : StagedEntry → List Byte
  | .source _ c => configBytes c
  | .lane _ limit => [BitVec.ofNat 8 limit]
  | .line _ us => wordBytes (BitVec.ofNat 16 us)

/-- The number of records of each target kind; a kind byte above 2 names none (R125). -/
def targetCount (kind : Byte) : Nat :=
  if kind = 0 then 64 else if kind = 1 then 8 else if kind = 2 then 40 else 0

/-- The kind byte and the number byte name a target that the list holds at position `p`, and not before it (R125). -/
def ListedAt (list : List StagedEntry) (kind number : Byte) (p : Nat) : Prop :=
  ((list[p]?).any fun e => entryKind e == kind && entryNumber e == number) = true ∧
    ∀ q < p, ((list[q]?).any fun e => entryKind e == kind && entryNumber e == number) = false

/-- The list holds no entry for the target (R125). -/
def NotListed (list : List StagedEntry) (kind number : Byte) : Prop :=
  ∀ e ∈ list, ¬ (entryKind e = kind ∧ entryNumber e = number)

/-! ## Commit -/

/-- R9, R134: both records in ONE mode, and a watch source's trigger changed from RISE, FALL or BOTH to HIGH or LOW. -/
def toLevel (i : SourceId) (old new : SourceConfig) : Bool :=
  kindOf i == .watch && old.mode == .one && new.mode == .one &&
    (old.trigger == .rise || old.trigger == .fall || old.trigger == .both) &&
    (new.trigger == .high || new.trigger == .low)

/-- R134: the staged entry is a conflict on the state as it stands. -/
def conflicts (s : State) : StagedEntry → Bool
  | .source i c =>
    (s.liveTickets.any fun t => t.source == i) &&
      (c.mode != (s.source i).config.mode || toLevel i (s.source i).config c)
  | .lane _ _ => false
  | .line _ _ => false

/-- R137: the record of source `i` after a commit applies configuration `c` to it. -/
def committed (s : State) (i : SourceId) (c : SourceConfig) : Source :=
  let r := s.source i
  let mailbox := if c.mode = r.config.mode then r.mailbox else 0
  if c.enabled then
    if r.state ≠ .armed ∨ c.mode ≠ r.config.mode ∨ toLevel i r.config c = true then
      checked s (s.liveTickets.any fun t => t.source == i) i
        { config := c, state := .armed, pendingCount := 0, overflowMark := false, attempts := 0, argQueue := []
          mailbox := mailbox
          marker := Vector.ofFn fun x : HostId =>
            if c.mode = .each ∧ (s.liveTickets.any fun t => t.source == i && t.host == x) = true then .held else .clear
          attemptsPerHost := Vector.replicate 4 0 }
    else
      { r with
        config := c, attempts := 0, attemptsPerHost := Vector.replicate 4 0
        marker := Vector.ofFn fun x : HostId =>
          if hasHost c.hostSet x then r.markerOf x else unowed (r.markerOf x) }
  else if r.state = .off then { r with config := c, mailbox := mailbox }
  else
    { emptied r with
      config := c, state := .off, attempts := 0, attemptsPerHost := Vector.replicate 4 0, mailbox := mailbox }

/-! ## Release -/

/-- The live ticket of source `i` that `h` holds. -/
def heldTicket (s : State) (h : HostId) (i : SourceId) : Option Ticket :=
  s.liveTickets.find? fun t => t.source == i && t.host == h

/-- R118 and R119: the record of source `i` after the release of `h`, before any notice. The level check reads state
`t`, the one the release leaves. -/
def released (s t : State) (h : HostId) (i : SourceId) : Source :=
  let r := s.source i
  match heldTicket s h i with
  | none =>
    if r.config.mode = .each ∧ r.markerOf h = .owed then { r with marker := r.marker.set h .clear } else r
  | some tk =>
    match r.config.mode with
    | .one => if r.state = .armed then checked t false i (returned tk r) else r
    | .each => checked t false i { r with marker := r.marker.set h .clear }

/-! ## Edges -/

/-- R11: what source `i` becomes by the report of an edge of line `l`; state `t` holds the level just accepted. -/
def edgeTaken (s t : State) (l : LineId) (rising : Bool) (i : SourceId) : Source :=
  let r := s.source i
  let occurs : Source :=
    match r.config.mode with
    | .one => counted (s.coveredBy i) r
    | .each => markedBy s (fun _ => true) r
  let checks : Source := checked t (s.liveTickets.any fun u => u.source == i) i r
  if kindOf i = .watch ∧ r.config.line = l ∧ r.state = .armed then
    match r.config.trigger with
    | .rise => if rising then occurs else r
    | .fall => if rising then r else occurs
    | .both => occurs
    | .high => if rising then checks else r
    | .low => if rising then r else checks
  else r

/-- R13: source `i` loses the occurrence of the edge while its overflow_mark is clear, so that an OVERFLOW record of it
is stored. -/
def overflows (s : State) (l : LineId) (rising : Bool) (i : SourceId) : Bool :=
  let r := s.source i
  kindOf i == .watch && r.config.line == l && r.state == .armed && r.config.mode == .one &&
    (match r.config.trigger with
    | .rise => rising
    | .fall => !rising
    | .both => true
    | .high => false
    | .low => false) &&
    !decide (r.pendingCount + s.coveredBy i < 15) && !r.overflowMark

/-- An accepted edge of line `l` at `level` led from `s` to `t`: R30 or R31 for the line, R32 for every watch source,
R13 and R142 for the records of the losses, in some order, and R20 for S63; everything else, and every other line and
source, is as it was. -/
def EdgeAccepted (s t : State) (l : LineId) (level : Bool) : Prop :=
  t = { s with sources := t.sources, lines := t.lines, atn := t.atn, faults := t.faults, drawn := t.drawn } ∧
  t.line l = { s.line l with rawLevel := level, acceptedLevel := level, settleDeadline := none } ∧
  (∀ j, j ≠ l → t.line j = s.line j) ∧
  (∀ i : SourceId, i ≠ 63 → t.source i = edgeTaken s t l level i) ∧
  (∃ lost : List SourceId, lost.Perm (allSources.filter fun i => overflows s l level i) ∧
    t.faults = lost.foldl (fun q i => stored q s.now (.overflow i)) s.faults ∧
    t.source 63 = Nat.iterate (noticed s) lost.length (s.source 63)) ∧
  AtnShown t

/-! ## Runs of bytes out of a port -/

/-- The `count` bytes that a port shifts out when it holds `frame`: the frame's, then 0x00 (R148, R155). -/
def outBytes (frame : List Byte) (count : Nat) : List Byte :=
  (List.range count).map fun n => frame.getD n 0

end Sys2Proof.Stated

open Sys2Proof Sys2Proof.Machine Sys2Proof.Safety Sys2Proof.Stated

/-- A step takes the command at the front of the queue and is exec of it on the state with the queue's rest. The queue is the model's (assumption log 1). -/
def Obligations.StepRunsTheFrontCommand : Prop :=
  ∀ (s : State) (c : Instr) (q : List Instr), step (s.setPending (c :: q)) = exec c (s.setPending q)

/-- The tick that stands in place of idling (DESIGN CHOICE, assumption log 6; the order of the due events is free, assumption log 3; `sampled` is no while a reset lasts, assumption log 13). -/
def Obligations.EmptyQueueStepPassesOneMicrosecond : Prop :=
  (∀ s : State, s.pending = [] → s.sampled = false → step s = .next s) ∧
  ∀ s : State, s.pending = [] → s.sampled = true →
    ∃ t, step s = .next t ∧
      t = { s with clock := t.clock, pending := t.pending, drawn := t.drawn } ∧
      t.clock.us = s.clock.us + 1 ∧
      (s.clock.usOfMs < 999 → t.clock.ms = s.clock.ms ∧ t.clock.usOfMs = s.clock.usOfMs + 1) ∧
      (999 ≤ s.clock.usOfMs → t.clock.ms = s.clock.ms + 1 ∧ t.clock.usOfMs = 0) ∧
      (∀ l : LineId, Instr.settleExpiry l ∈ t.pending ↔ ∃ d, (s.line l).settleDeadline = some d ∧ d ≤ t.clock.us) ∧
      (∀ k : SlotId, Instr.leaseExpiry k ∈ t.pending ↔
        ∃ tk d, (s.slot k).ticket = some tk ∧ tk.deadlineMs = some d ∧ reachedMs t.now d = true) ∧
      (Instr.idleExpiry ∈ t.pending ↔
        ∃ h d, s.edit.holder = some h ∧ s.edit.commitInFlight = false ∧ s.edit.idleDeadline = some d ∧
          reachedMs t.now d = true) ∧
      (Instr.commitCompletion ∈ t.pending ↔
        ∃ d, s.edit.commitInFlight = true ∧ s.edit.commitBoundUs = some d ∧ d ≤ t.clock.us) ∧
      (Instr.claimTaken ∈ t.pending ↔ ∃ h : HostId, (s.waitingClaim h).isSome = true) ∧
      ∀ c ∈ t.pending,
        (∃ l, c = .settleExpiry l) ∨ (∃ k, c = .leaseExpiry k) ∨ c = .idleExpiry ∨ c = .commitCompletion ∨
          c = .claimTaken

/-- ATTACH (R112, R113). -/
def Obligations.AttachAdmitsTheHost : Prop :=
  (∀ (s : State) (h : HostId) (mask : LaneMask),
    Ready s h → s.attached h = false →
    ∃ t, exec (.attach h mask) s = .next t ∧
      t = { s with sources := t.sources, hosts := t.hosts, atn := t.atn, ports := t.ports, edit := t.edit } ∧
      t.host h = { s.host h with attached := true, laneMask := mask } ∧
      (∀ x, x ≠ h → t.host x = s.host x) ∧
      (∀ i : SourceId, t.source i =
        if (s.source i).state = .armed ∧ (s.source i).config.mode = .each ∧ kindOf i = .watch ∧
            levelHolds s (s.source i).config = true ∧ hasHost (s.source i).config.hostSet h = true ∧
            (s.source i).markerOf h = .clear then
          { s.source i with marker := (s.source i).marker.set h .owed }
        else s.source i) ∧
      AtnShown t ∧
      Restarted h s t ∧
      Answers (.attach h mask) h (.okWith [mask]) s t) ∧
  ∀ (s : State) (h : HostId) (mask : LaneMask), Ready s h → s.attached h = true →
    OnlyAnswers (.attach h mask) h (.bare .wrongState) s

/-- DETACH (R115, R116). -/
def Obligations.DetachDismissesTheHost : Prop :=
  (∀ (s : State) (h : HostId),
    Ready s h → s.attached h = true → (∀ k : SlotId, ∀ u ∈ (s.slot k).ticket, u.host ≠ h) →
    (s.host h).editState ≠ .session →
    ∃ t, exec (.detach h) s = .next t ∧
      t = { s with sources := t.sources, hosts := t.hosts, atn := t.atn, ports := t.ports, edit := t.edit } ∧
      t.host h = { s.host h with attached := false, laneMask := 0 } ∧
      (∀ x, x ≠ h → t.host x = s.host x) ∧
      (∀ i : SourceId, t.source i =
        if (s.source i).config.mode = .each ∧ (s.source i).markerOf h = .owed then
          { s.source i with marker := (s.source i).marker.set h .clear }
        else s.source i) ∧
      AtnShown t ∧
      t.atnOf h = false ∧
      Restarted h s t ∧
      Answers (.detach h) h (.okWith []) s t) ∧
  ∀ (s : State) (h : HostId), Ready s h →
    (s.attached h = false → OnlyAnswers (.detach h) h (.bare .notAttached) s) ∧
    (s.attached h = true → (∃ k : SlotId, ∃ u ∈ (s.slot k).ticket, u.host = h) →
      OnlyAnswers (.detach h) h (.bare .busy) s) ∧
    (s.attached h = true → (s.host h).editState = .session → OnlyAnswers (.detach h) h (.bare .busy) s)

/-- SET_MASK (R46). -/
def Obligations.SetMaskReplacesTheMask : Prop :=
  (∀ (s : State) (h : HostId) (mask : LaneMask), Ready s h → s.attached h = true →
    ∃ t, exec (.setMask h mask) s = .next t ∧
      t = { s with hosts := t.hosts, atn := t.atn, ports := t.ports, edit := t.edit } ∧
      t.host h = { s.host h with laneMask := mask } ∧
      (∀ x, x ≠ h → t.host x = s.host x) ∧
      AtnShown t ∧ Restarted h s t ∧ Answers (.setMask h mask) h (.okWith [mask]) s t) ∧
  ∀ (s : State) (h : HostId) (mask : LaneMask), Ready s h → s.attached h = false →
    OnlyAnswers (.setMask h mask) h (.bare .notAttached) s

/-- CLAIM (R57, R151, R153). -/
def Obligations.ClaimWaitsAtTheArbiter : Prop :=
  ∀ (s : State) (h : HostId) (choice : Byte),
    Ready s h →
    ∃ t, exec (.claim h choice) s = .next t ∧
      t = { s with waiting := t.waiting, ports := t.ports } ∧
      t.waitingClaim h = some choice ∧
      (∀ x, x ≠ h → t.waitingClaim x = s.waitingClaim x) ∧
      t.port h = workingPort (.claim h choice) (s.port h) ∧
      ∀ x, x ≠ h → t.port x = s.port x

/-- The selection (R56, R61, R63). -/
def Obligations.SelectionIsByLaneRankAndNumber : Prop :=
  ∀ (s : State) (h : HostId) (c : LaneChoice),
    (∀ i : SourceId, select s h c = some i ↔ Best s h c i) ∧ (select s h c = none ↔ NothingFor s h c)

/-- CLAIM_TAKEN that issues a ticket (R57, R58, R66, R67, R69 to R76). -/
def Obligations.ClaimTakenIssuesATicket : Prop :=
  ∀ (s : State) (h : HostId) (b : Byte) (c : LaneChoice) (i : SourceId),
    IsNext s h b → s.attached h = true → Names b c → choiceAdmitted s h c = true → s.liveTotal < 32 → Best s h c i →
    ∃ t, exec .claimTaken s = .next t ∧
      t = { s with sources := t.sources, slots := t.slots, atn := t.atn, waiting := t.waiting, rotation := t.rotation, ports := t.ports, edit := t.edit } ∧
      (∃ (k : SlotId) (q : BitVec 11), (s.slot k).ticket = none ∧ (∀ j < k, (s.slot j).ticket ≠ none) ∧
        q = (if (s.slot k).sequence = 2047 then 1 else (s.slot k).sequence + 1) ∧
        t.slot k = { sequence := q, ticket := some (issued s h i k q) } ∧ (∀ j, j ≠ k → t.slot j = s.slot j) ∧
        AnswersWaiting h (.okWith (claimBytes (issued s h i k q))) s t) ∧
      t.source i = taken h i (s.source i) ∧
      (∀ j, j ≠ i → t.source j = s.source j) ∧
      t.waitingClaim h = none ∧
      (∀ x, x ≠ h → t.waitingClaim x = s.waitingClaim x) ∧
      t.rotation = h ∧
      AtnShown t ∧
      Restarted h s t

/-- CLAIM_TAKEN that issues nothing (R55, R58, R63, R64). -/
def Obligations.ClaimTakenWithoutATicket : Prop :=
  ∀ (s : State) (h : HostId) (b : Byte) (st : Status), IsNext s h b →
    ((s.attached h = false ∧ st = .notAttached) ∨
      (s.attached h = true ∧ (∀ c, ¬ Names b c) ∧ st = .badValue) ∨
      (s.attached h = true ∧ (∃ c, Names b c ∧ choiceAdmitted s h c = false) ∧ st = .badValue) ∨
      (s.attached h = true ∧ (∃ c, Names b c ∧ choiceAdmitted s h c = true) ∧ 32 ≤ s.liveTotal ∧ st = .full) ∨
      (s.attached h = true ∧ s.liveTotal < 32 ∧
        (∃ c, Names b c ∧ choiceAdmitted s h c = true ∧ NothingFor s h c) ∧ st = .none)) →
    ∃ t, exec .claimTaken s = .next t ∧
      t = { s with waiting := t.waiting, rotation := h, ports := t.ports, edit := t.edit } ∧
      t.waitingClaim h = none ∧ (∀ x, x ≠ h → t.waitingClaim x = s.waitingClaim x) ∧
      Restarted h s t ∧ AnswersWaiting h (.bare st) s t

/-- Ticket numbers, sequence counters and live numbers (R66). -/
def Obligations.TicketNumbersNameSlotAndSequence : Prop :=
  (∀ (q : BitVec 11) (k : SlotId),
    (ticketNumber q k).toNat = q.toNat * 32 + k.val ∧ slotOf (ticketNumber q k) = k ∧
      sequenceOf (ticketNumber q k) = q) ∧
  (∀ q : BitVec 11,
    (q = 2047 → advanceSequence q = 1) ∧ (q ≠ 2047 → (advanceSequence q).toNat = q.toNat + 1) ∧ advanceSequence q ≠ 0) ∧
  ∀ (s : State) (n : Word) (tk : Ticket),
    s.findLive n = some tk ↔
      ∃ k : SlotId, n.toNat % 32 = k.val ∧ (s.slot k).ticket = some tk ∧ n.toNat / 32 ≠ 0 ∧
        tk.number.toNat / 32 = n.toNat / 32

/-- Deliverability (R47) and the level of ATN (R49). -/
def Obligations.AttentionIsTheSixConditions : Prop :=
  (∀ (s : State) (i : SourceId) (h : HostId),
    deliverable s i h = true ↔
      (s.source i).state = .armed ∧ (s.host h).attached = true ∧ hasHost (s.source i).config.hostSet h = true ∧
      hasLane (s.host h).laneMask (s.source i).config.lane = true ∧
      s.liveTickets.countP (fun u => u.host == h && u.lane == (s.source i).config.lane) <
        s.creditLimit (s.source i).config.lane ∧
      ((s.source i).config.mode = .one →
        0 < (if kindOf i = .posted then (s.source i).argQueue.length else (s.source i).pendingCount) ∧
          ∀ k : SlotId, ∀ u ∈ (s.slot k).ticket, u.source ≠ i) ∧
      ((s.source i).config.mode = .each → (s.source i).markerOf h = .owed)) ∧
  ∀ (s : State) (h : HostId),
    atnLevel s h = true ↔
      (s.host h).attached = true ∧ (∃ k : SlotId, (s.slot k).ticket = none) ∧ ∃ i, deliverable s i h = true

/-- DONE against an ARMED source (R80, R81, R82). -/
def Obligations.DoneConsumesTheWork : Prop :=
  ∀ (s : State) (h : HostId) (n : Word) (tk : Ticket),
    Ready s h → s.findLive n = some tk → tk.host = h → (s.source tk.source).state = .armed →
    ∃ t, exec (.done h n) s = .next t ∧
      t = { s with sources := t.sources, slots := t.slots, atn := t.atn, ports := t.ports, edit := t.edit } ∧
      t.slot (slotOf n) = { s.slot (slotOf n) with ticket := none } ∧
      (∀ k, k ≠ slotOf n → t.slot k = s.slot k) ∧
      (∀ j, j ≠ tk.source → t.source j = s.source j) ∧
      t.source tk.source =
        checked s (otherLive s (slotOf n) tk.source) tk.source (consumed h (s.source tk.source)) ∧
      AtnShown t ∧
      Restarted h s t ∧
      Answers (.done h n) h (.okWith (wordBytes tk.number ++ [0])) s t

/-- DEFER against an ARMED source (R80, R83, R84). -/
def Obligations.DeferReturnsTheWork : Prop :=
  ∀ (s : State) (h : HostId) (n : Word) (tk : Ticket),
    Ready s h → s.findLive n = some tk → tk.host = h → (s.source tk.source).state = .armed →
    ∃ t, exec (.defer h n) s = .next t ∧
      t = { s with sources := t.sources, slots := t.slots, atn := t.atn, ports := t.ports, edit := t.edit } ∧
      t.slot (slotOf n) = { s.slot (slotOf n) with ticket := none } ∧
      (∀ k, k ≠ slotOf n → t.slot k = s.slot k) ∧
      (∀ j, j ≠ tk.source → t.source j = s.source j) ∧
      t.source tk.source =
        checked s (otherLive s (slotOf n) tk.source) tk.source (returned tk (s.source tk.source)) ∧
      AtnShown t ∧
      Restarted h s t ∧
      Answers (.defer h n) h (.okWith (wordBytes tk.number ++ [1])) s t

/-- Ends against a source in OFF or FAULTED (R85; the release is in HostReleaseTakesEverythingBack). -/
def Obligations.EndsAgainstASourceOutOfServiceDiscard : Prop :=
  (∀ (s : State) (h : HostId) (n : Word) (tk : Ticket) (c : Instr), c = .done h n ∨ c = .defer h n →
    Ready s h → s.findLive n = some tk → tk.host = h → (s.source tk.source).state ≠ .armed →
    ∃ t, exec c s = .next t ∧
      t = { s with sources := t.sources, slots := t.slots, atn := t.atn, ports := t.ports, edit := t.edit } ∧
      t.slot (slotOf n) = { s.slot (slotOf n) with ticket := none } ∧ (∀ k, k ≠ slotOf n → t.slot k = s.slot k) ∧
      t.source tk.source = discarded h (s.source tk.source) ∧ (∀ j, j ≠ tk.source → t.source j = s.source j) ∧
      AtnShown t ∧ Restarted h s t ∧ Answers c h (.okWith (wordBytes tk.number ++ [2])) s t) ∧
  ∀ (s : State) (k : SlotId) (tk : Ticket) (d : Millis),
    (s.slot k).ticket = some tk → tk.deadlineMs = some d → reachedMs s.now d = true →
    (s.source tk.source).state ≠ .armed →
    ∃ t, exec (.leaseExpiry k) s = .next t ∧
      t = { s with sources := t.sources, slots := t.slots, atn := t.atn } ∧
      t.slot k = { s.slot k with ticket := none } ∧ (∀ j, j ≠ k → t.slot j = s.slot j) ∧
      t.source tk.source = discarded tk.host (s.source tk.source) ∧
      (∀ j, j ≠ tk.source → t.source j = s.source j) ∧ AtnShown t

/-- The two checks before a request against a ticket (R79). -/
def Obligations.NumbersNotOnesOwnAreRefused : Prop :=
  ∀ (s : State) (h : HostId) (n : Word) (c : Instr), c = .done h n ∨ c = .defer h n ∨ c = .extend h n → Ready s h →
    ((n.toNat / 32 = 0 ∨ (∀ u ∈ (s.slot (slotOf n)).ticket, u.number.toNat / 32 ≠ n.toNat / 32)) →
      OnlyAnswers c h (.bare .stale) s) ∧
    ∀ u ∈ s.findLive n, u.host ≠ h → OnlyAnswers c h (.bare .denied) s

/-- EXTEND of the requester's own ticket (R86). -/
def Obligations.ExtendMovesTheDeadline : Prop :=
  ∀ (s : State) (h : HostId) (n : Word) (tk : Ticket), Ready s h → s.findLive n = some tk → tk.host = h →
    (tk.leaseMs = 0 →
      OnlyAnswers (.extend h n) h (.okWith (wordBytes tk.number ++ [BitVec.ofNat 8 tk.extensions])) s) ∧
    (0 < tk.leaseMs → tk.extensions < 15 →
      ∃ t, exec (.extend h n) s = .next t ∧
        t = { s with slots := t.slots, ports := t.ports, edit := t.edit } ∧
        t.slot (slotOf n) =
          { s.slot (slotOf n) with
            ticket :=
              some
                { tk with
                  deadlineMs := some (s.now + BitVec.ofNat 32 tk.leaseMs), extensions := tk.extensions + 1 } } ∧
        (∀ k, k ≠ slotOf n → t.slot k = s.slot k) ∧ Restarted h s t ∧
        Answers (.extend h n) h
          (.okWith
            (wordBytes tk.number ++ [BitVec.ofNat 8 (tk.extensions + 1)] ++ wordBytes (BitVec.ofNat 16 tk.leaseMs)))
          s t) ∧
    (0 < tk.leaseMs → 15 ≤ tk.extensions → OnlyAnswers (.extend h n) h (.bare .denied) s)

/-- Lease expiry without abandonment (R88, R90, R92). The premise RuntimeKept, an attempt count of at most 7 among it (R4), is part of the invariant of EveryStepKeepsTheInvariant. -/
def Obligations.LeaseExpiryReturnsTheWork : Prop :=
  ∀ (s : State) (k : SlotId) (tk : Ticket) (d : Millis),
    RuntimeKept tk.source (s.source tk.source) → (s.slot k).ticket = some tk → tk.deadlineMs = some d →
    reachedMs s.now d = true → (s.source tk.source).state = .armed →
    reachesLimit tk.source tk.host (attempted tk.host (returned tk (s.source tk.source))) = false →
    ∃ t, exec (.leaseExpiry k) s = .next t ∧
      t = { s with sources := t.sources, slots := t.slots, atn := t.atn } ∧
      t.slot k = { s.slot k with ticket := none } ∧
      (∀ j, j ≠ k → t.slot j = s.slot j) ∧
      (∀ j, j ≠ tk.source → t.source j = s.source j) ∧
      t.source tk.source =
        checked s (otherLive s k tk.source) tk.source (attempted tk.host (returned tk (s.source tk.source))) ∧
      AtnShown t

/-- Abandonment (R8, R90, R91, with the store of R142 and the notice of R20). The premise RuntimeKept, an attempt count of at most 7 among it (R4), is part of the invariant of EveryStepKeepsTheInvariant. -/
def Obligations.LeaseExpiryAbandonsTheSource : Prop :=
  ∀ (s : State) (k : SlotId) (tk : Ticket) (d : Millis),
    RuntimeKept tk.source (s.source tk.source) → (s.slot k).ticket = some tk → tk.deadlineMs = some d →
    reachedMs s.now d = true → (s.source tk.source).state = .armed →
    reachesLimit tk.source tk.host (attempted tk.host (returned tk (s.source tk.source))) = true →
    ∃ t, exec (.leaseExpiry k) s = .next t ∧
      t = { s with sources := t.sources, slots := t.slots, atn := t.atn, faults := t.faults } ∧
      t.slot k = { s.slot k with ticket := none } ∧
      (∀ j, j ≠ k → t.slot j = s.slot j) ∧
      t.source tk.source =
        { emptied (attempted tk.host (returned tk (s.source tk.source))) with state := .faulted } ∧
      t.source 63 = noticed s (s.source 63) ∧
      (∀ j, j ≠ tk.source → j ≠ 63 → t.source j = s.source j) ∧
      t.faults =
        stored s.faults s.now
          (.abandoned tk.source (if (s.source tk.source).config.mode = .each then some tk.host else none) tk.number
            (countOf tk.host (attempted tk.host (s.source tk.source)))) ∧
      AtnShown t

/-- A ticket's record keeps its snapshot (R68, R86). -/
def Obligations.LiveTicketsKeepTheirSnapshot : Prop :=
  ∀ (s t : State) (c : Instr) (k : SlotId) (tk : Ticket), exec c s = .next t → (s.slot k).ticket = some tk →
    (t.slot k).ticket = none ∨
      ∃ u, (t.slot k).ticket = some u ∧ u = { tk with deadlineMs := u.deadlineMs, extensions := u.extensions } ∧
        (u = tk ∨ (∃ h n, c = .extend h n) ∨ (∃ h bs e, c = .frameRejected h bs e) ∨
          ∃ h bs e, c = .incompleteFrame h bs e)

/-- POST in ONE mode (R18, R101). -/
def Obligations.PostJoinsTheQueueOrIsFull : Prop :=
  ∀ (s : State) (h : HostId) (i : SourceId) (argument : Word),
    Ready s h → kindOf i = .posted → s.attached h = true → hasHost (s.source i).config.posters h = true →
    (s.source i).state = .armed → (s.source i).config.mode = .one →
    ((s.source i).argQueue.length + s.heldArguments i < 4 →
      ∃ t, exec (.post h (BitVec.ofNat 8 i.val) argument) s = .next t ∧
        t = { s with sources := t.sources, atn := t.atn, ports := t.ports, edit := t.edit } ∧
        t.source i = { s.source i with argQueue := (s.source i).argQueue ++ [argument] } ∧
        (∀ j, j ≠ i → t.source j = s.source j) ∧ AtnShown t ∧ Restarted h s t ∧
        Answers (.post h (BitVec.ofNat 8 i.val) argument) h
          (.okWith
            [BitVec.ofNat 8 i.val, BitVec.ofNat 8 ((s.source i).argQueue.length + 1),
              if s.heldArguments i = 0 then 0 else 1])
          s t) ∧
    (4 ≤ (s.source i).argQueue.length + s.heldArguments i →
      OnlyAnswers (.post h (BitVec.ofNat 8 i.val) argument) h (.bare .full) s)

/-- POST in EACH mode (R19, R101, R105). -/
def Obligations.PostWritesTheMailboxAndMarks : Prop :=
  ∀ (s : State) (h : HostId) (i : SourceId) (argument : Word),
    Ready s h → kindOf i = .posted → s.attached h = true → hasHost (s.source i).config.posters h = true →
    (s.source i).state = .armed → (s.source i).config.mode = .each →
    ∃ t, exec (.post h (BitVec.ofNat 8 i.val) argument) s = .next t ∧
      t = { s with sources := t.sources, atn := t.atn, ports := t.ports, edit := t.edit } ∧
      t.source i =
        markedBy s (fun x => (s.source i).config.echo || x != h) { s.source i with mailbox := argument } ∧
      (∀ j, j ≠ i → t.source j = s.source j) ∧
      AtnShown t ∧
      Restarted h s t ∧
      Answers (.post h (BitVec.ofNat 8 i.val) argument) h
        (.okWith
          [BitVec.ofNat 8 i.val,
            hostBits fun x =>
              hasHost (s.source i).config.hostSet x && s.attached x && ((s.source i).config.echo || x != h)])
        s t

/-- The refusals of POST (R99, steps 1 to 5; step 6 is PostJoinsTheQueueOrIsFull and PostWritesTheMailboxAndMarks). -/
def Obligations.PostRefusedInOrder : Prop :=
  ∀ (s : State) (h : HostId) (b : Byte) (argument : Word), Ready s h →
    ((63 < b.toNat ∨ b.toNat < 48) → OnlyAnswers (.post h b argument) h (.bare .badValue) s) ∧
    (b.toNat = 63 → OnlyAnswers (.post h b argument) h (.bare .denied) s) ∧
    ∀ i : SourceId, kindOf i = .posted → b.toNat = i.val →
      (s.attached h = false → OnlyAnswers (.post h b argument) h (.bare .notAttached) s) ∧
      (s.attached h = true → hasHost (s.source i).config.posters h = false →
        OnlyAnswers (.post h b argument) h (.bare .denied) s) ∧
      (s.attached h = true → hasHost (s.source i).config.posters h = true → (s.source i).state ≠ .armed →
        OnlyAnswers (.post h b argument) h (.bare .wrongState) s)

/-- REARM (R10). -/
def Obligations.RearmReturnsAFaultedSourceToArmed : Prop :=
  ∀ (s : State) (h : HostId) (b : Byte), Ready s h →
    (63 < b.toNat → OnlyAnswers (.rearm h b) h (.bare .badValue) s) ∧
    ∀ i : SourceId, b.toNat = i.val →
      (s.attached h = false → OnlyAnswers (.rearm h b) h (.bare .notAttached) s) ∧
      (s.attached h = true → hasHost (s.source i).config.hostSet h = false →
        OnlyAnswers (.rearm h b) h (.bare .denied) s) ∧
      (s.attached h = true → hasHost (s.source i).config.hostSet h = true → (s.source i).state ≠ .faulted →
        OnlyAnswers (.rearm h b) h (.bare .wrongState) s) ∧
      (s.attached h = true → hasHost (s.source i).config.hostSet h = true → (s.source i).state = .faulted →
        ∃ t, exec (.rearm h b) s = .next t ∧
          t = { s with sources := t.sources, atn := t.atn, ports := t.ports, edit := t.edit } ∧
          t.source i =
            checked s (s.liveTickets.any fun u => u.source == i) i
              { s.source i with state := .armed, attempts := 0, attemptsPerHost := Vector.replicate 4 0 } ∧
          (∀ j, j ≠ i → t.source j = s.source j) ∧ AtnShown t ∧ Restarted h s t ∧
          Answers (.rearm h b) h (.okWith []) s t)

/-- READ_SOURCE (R23, R24, R163). -/
def Obligations.ReadSourceShowsTheRecord : Prop :=
  ∀ (s : State) (h : HostId) (b : Byte), Ready s h →
    (63 < b.toNat → OnlyAnswers (.readSource h b) h (.bare .badValue) s) ∧
    ∀ i : SourceId, b.toNat = i.val →
      let r := s.source i
      let front : List Byte :=
        BitVec.ofNat 8 i.val :: (if i.val < 48 then 0 else if i.val < 63 then 1 else 2) ::
          (match r.state with | .off => 0 | .armed => 1 | .faulted => 2) :: configBytes r.config
      let perHost : List Byte :=
        (allHosts.map fun x =>
            (match r.markerOf x with | .clear => 0 | .owed => 1 | .held => 2 | .heldOwed => 3 : Byte)) ++
          allHosts.map fun x => BitVec.ofNat 8 (r.attemptsOf x)
      let live : List Byte := (s.liveTickets.find? fun u => u.source == i).elim [] fun u => wordBytes u.number
      (r.config.mode = .one → kindOf i ≠ .posted →
        OnlyAnswers (.readSource h b) h
          (.okWith
            (front ++ [BitVec.ofNat 8 r.pendingCount, if r.overflowMark then 1 else 0, BitVec.ofNat 8 r.attempts] ++
              live))
          s) ∧
      (r.config.mode = .one → kindOf i = .posted →
        OnlyAnswers (.readSource h b) h
          (.okWith
            (front ++ [BitVec.ofNat 8 r.attempts, BitVec.ofNat 8 r.argQueue.length] ++
              (r.argQueue.map wordBytes).flatten ++ live))
          s) ∧
      (r.config.mode = .each → kindOf i ≠ .posted →
        OnlyAnswers (.readSource h b) h (.okWith (front ++ perHost)) s) ∧
      (r.config.mode = .each → kindOf i = .posted →
        OnlyAnswers (.readSource h b) h (.okWith (front ++ wordBytes r.mailbox ++ perHost)) s)

/-- READ_TICKETS (R77, R78, R163). The premise TicketsKept is part of the invariant of EveryStepKeepsTheInvariant. -/
def Obligations.ReadTicketsListsAPage : Prop :=
  ∀ (s : State) (h : HostId) (b : Byte), TicketsKept s → Ready s h →
    (31 < b.toNat → OnlyAnswers (.readTickets h b) h (.bare .badValue) s) ∧
    (b.toNat ≤ 31 →
      let slots := allSlots.filter fun k => decide (b.toNat ≤ k.val) && (s.slot k).ticket.isSome
      let page := (slots.take 3).filterMap fun k => (s.slot k).ticket
      OnlyAnswers (.readTickets h b) h
        (.okWith
          ([BitVec.ofNat 8 s.liveTotal, BitVec.ofNat 8 page.length,
              (slots[3]?).elim 0xFF fun k => BitVec.ofNat 8 k.val] ++
            (page.map (entryBytes s.now h)).flatten))
        s)

/-- READ_LINE (R37), READ_STATUS (R158), FAULT_PEEK (R146), laid out by R163 and R164. -/
def Obligations.ReadLineStatusAndFaultPeek : Prop :=
  ∀ (s : State) (h : HostId), Ready s h →
    (∀ b : Byte, 39 < b.toNat → OnlyAnswers (.readLine h b) h (.bare .badValue) s) ∧
    (∀ (b : Byte) (i : LineId), b.toNat = i.val →
      OnlyAnswers (.readLine h b) h
        (.okWith
          ([BitVec.ofNat 8 i.val, if (s.line i).rawLevel then 1 else 0, if (s.line i).acceptedLevel then 1 else 0,
              if (s.line i).settleDeadline = none then 0 else 1] ++ wordBytes (BitVec.ofNat 16 (s.line i).settleUs) ++
            (s.line i).settleDeadline.elim [] fun d => wordBytes (BitVec.ofNat 16 (d - s.clock.us))))
        s) ∧
    OnlyAnswers (.readStatus h) h
      (.okWith
        ([0x64, 0x04, 1] ++ millisBytes s.now ++
          [BitVec.ofNat 8 s.liveTotal, s.edit.holder.elim 0xFF fun x => BitVec.ofNat 8 x.val,
            if s.edit.commitInFlight then 1 else 0, BitVec.ofNat 8 s.faults.records.length,
            hostBits fun x => s.attached x]))
      s ∧
    OnlyAnswers (.faultPeek h) h
      (.okWith
        ([BitVec.ofNat 8 s.faults.records.length] ++ wordBytes s.faults.nextSeq ++
          [BitVec.ofNat 8 (min 4 s.faults.records.length)] ++ ((s.faults.records.take 4).map faultBytes).flatten))
      s

/-- FAULT_TAKE (R145, R164). -/
def Obligations.FaultTakeRemovesTheOldest : Prop :=
  ∀ (s : State) (h : HostId), Ready s h →
    (s.faults.records = [] → OnlyAnswers (.faultTake h) h (.bare .none) s) ∧
    ∀ (r : FaultRecord) (rest : List FaultRecord), s.faults.records = r :: rest →
      ∃ t, exec (.faultTake h) s = .next t ∧
        t = { s with faults := { s.faults with records := rest }, ports := t.ports, edit := t.edit } ∧
        Restarted h s t ∧ Answers (.faultTake h) h (.okWith (faultBytes r ++ [BitVec.ofNat 8 rest.length])) s t

/-- A store with its notice (R142, R143, R20). -/
def Obligations.StoresKeepTheNewestRecords : Prop :=
  ∀ (s : State) (cause : FaultCause),
    storeFault cause s =
        { s with sources := (storeFault cause s).sources, faults := (storeFault cause s).faults } ∧
      (storeFault cause s).faults = stored s.faults s.now cause ∧
      (storeFault cause s).source 63 = noticed s (s.source 63) ∧
      ∀ i : SourceId, i ≠ 63 → (storeFault cause s).source i = s.source i

/-- EDIT_OPEN (R126). -/
def Obligations.EditOpenTakesTheSession : Prop :=
  ∀ (s : State) (h : HostId), Ready s h →
    (s.attached h = false → OnlyAnswers (.editOpen h) h (.bare .notAttached) s) ∧
    (s.attached h = true → s.edit.holder = some h → OnlyAnswers (.editOpen h) h (.bare .wrongState) s) ∧
    (∀ x : HostId, s.attached h = true → s.edit.holder = some x → x ≠ h →
      OnlyAnswers (.editOpen h) h (.bare .busy) s) ∧
    (s.attached h = true → s.edit.holder = none →
      ∃ t, exec (.editOpen h) s = .next t ∧
        t = { s with hosts := t.hosts, ports := t.ports, edit := t.edit } ∧
        t.edit =
          { holder := some h, staged := [], idleDeadline := some (s.now + 250), commitInFlight := false
            commitBoundUs := none } ∧
        t.host h = { s.host h with editState := .session } ∧ (∀ x, x ≠ h → t.host x = s.host x) ∧
        Answers (.editOpen h) h (.okWith [0, 250]) s t)

/-- EDIT_STAGE past its validation (R129 steps 4 and 5, R130). -/
def Obligations.EditStageBuildsTheList : Prop :=
  ∀ (s : State) (h : HostId) (e : StagedEntry), Ready s h → Holds s h → StagedEntry.Valid e →
    (∀ p : Nat, ListedAt s.edit.staged (entryKind e) (entryNumber e) p →
      ∃ t, exec (.editStage h (entryKind e) (entryNumber e) (entryRecord e)) s = .next t ∧
        t = { s with ports := t.ports, edit := t.edit } ∧
        t.edit = { s.edit with staged := s.edit.staged.set p e, idleDeadline := some (s.now + 250) } ∧
        Answers (.editStage h (entryKind e) (entryNumber e) (entryRecord e)) h
          (.okWith [BitVec.ofNat 8 p, BitVec.ofNat 8 s.edit.staged.length]) s t) ∧
    (NotListed s.edit.staged (entryKind e) (entryNumber e) → s.edit.staged.length < 16 →
      ∃ t, exec (.editStage h (entryKind e) (entryNumber e) (entryRecord e)) s = .next t ∧
        t = { s with ports := t.ports, edit := t.edit } ∧
        t.edit = { s.edit with staged := s.edit.staged ++ [e], idleDeadline := some (s.now + 250) } ∧
        Answers (.editStage h (entryKind e) (entryNumber e) (entryRecord e)) h
          (.okWith [BitVec.ofNat 8 s.edit.staged.length, BitVec.ofNat 8 (s.edit.staged.length + 1)]) s t) ∧
    (NotListed s.edit.staged (entryKind e) (entryNumber e) → 16 ≤ s.edit.staged.length →
      OnlyAnswers (.editStage h (entryKind e) (entryNumber e) (entryRecord e)) h (.bare .full) s)

/-- The refusals of EDIT_STAGE (R129 steps 1 to 3; step 4 is in EditStageBuildsTheList). A record is valid when it is the record of a valid entry. The wrong length is check 5 of R151; that EDIT_STAGE can carry one is the table's row (assumption log 8). -/
def Obligations.EditStageRefusesBadRecords : Prop :=
  (∀ (s : State) (h : HostId) (kind number : Byte) (record : List Byte),
    Ready s h → StageLength (kind :: number :: record) →
    (s.edit.holder ≠ some h → OnlyAnswers (.editStage h kind number record) h (.bare .noSession) s) ∧
    (s.edit.holder = some h →
      (¬ ∃ e : StagedEntry,
        StagedEntry.Valid e ∧ entryKind e = kind ∧ entryNumber e = number ∧ entryRecord e = record) →
      OnlyAnswers (.editStage h kind number record) h (.bare .badValue) s)) ∧
  (∀ (s : State) (h : HostId) (kind number : Byte) (record : List Byte),
    Ready s h → ¬ StageLength (kind :: number :: record) →
    ∃ t, exec (.editStage h kind number record) s = .next t ∧ t = { s with ports := t.ports } ∧
      Answers (.editStage h kind number record) h (.bare .badFrame) s t) ∧
  (∀ (n : SourceId) (c : SourceConfig),
    StagedEntry.Valid (.source n c) ↔
      (c.enabled = true → c.hostSet ≠ 0) ∧ c.leaseMs ≤ 60000 ∧
      (kindOf n ≠ .watch → c.line = 0 ∧ c.trigger = .rise) ∧
      (kindOf n ≠ .posted → c.posters = 0 ∧ c.echo = false)) ∧
  (∀ (k : LaneId) (limit : Nat), StagedEntry.Valid (.lane k limit) ↔ 1 ≤ limit ∧ limit ≤ 4) ∧
  ∀ (i : LineId) (us : Nat), StagedEntry.Valid (.line i us) ↔ us ≤ 1020 ∧ us % 4 = 0

/-- The source configuration block (R160, R161), bit by bit and both ways. -/
def Obligations.SourceBlocksCarryTheConfiguration : Prop :=
  (∀ c : SourceConfig, sourceBlock c = configBytes c ∧ (configBytes c).length = 9) ∧
  (∀ c : SourceConfig, c.leaseMs < 65536 → parseSourceBlock (configBytes c) = some c) ∧
  ∀ (bytes : List Byte) (c : SourceConfig), parseSourceBlock bytes = some c → bytes = configBytes c

/-- EDIT_DROP (R131). -/
def Obligations.EditDropRemovesTheEntry : Prop :=
  ∀ (s : State) (h : HostId) (kind number : Byte), Ready s h →
    (s.edit.holder ≠ some h → OnlyAnswers (.editDrop h kind number) h (.bare .noSession) s) ∧
    (Holds s h → targetCount kind ≤ number.toNat → OnlyAnswers (.editDrop h kind number) h (.bare .badValue) s) ∧
    (Holds s h → number.toNat < targetCount kind → NotListed s.edit.staged kind number →
      OnlyAnswers (.editDrop h kind number) h (.bare .none) s) ∧
    ∀ p : Nat, Holds s h → ListedAt s.edit.staged kind number p →
      ∃ t, exec (.editDrop h kind number) s = .next t ∧
        t = { s with ports := t.ports, edit := t.edit } ∧
        t.edit = { s.edit with staged := s.edit.staged.eraseIdx p, idleDeadline := some (s.now + 250) } ∧
        Answers (.editDrop h kind number) h
          (.okWith [BitVec.ofNat 8 p, BitVec.ofNat 8 (s.edit.staged.length - 1)]) s t

/-- EDIT_LIST (R132, R163). -/
def Obligations.EditListShowsTheEntries : Prop :=
  ∀ (s : State) (h : HostId) (b : Byte), Ready s h →
    (s.edit.holder ≠ some h → OnlyAnswers (.editList h b) h (.bare .noSession) s) ∧
    (s.edit.holder = some h → 15 < b.toNat → OnlyAnswers (.editList h b) h (.bare .badValue) s) ∧
    (s.edit.holder = some h → b.toNat ≤ 15 →
      OnlyAnswers (.editList h b) h
        (.okWith
          ([BitVec.ofNat 8 s.edit.staged.length, BitVec.ofNat 8 (min 4 (s.edit.staged.length - b.toNat))] ++
            (((s.edit.staged.drop b.toNat).take 4).map fun e =>
              entryKind e :: entryNumber e :: entryRecord e).flatten))
        s)

/-- EDIT_CLOSE (R133). -/
def Obligations.EditCloseEndsTheSession : Prop :=
  ∀ (s : State) (h : HostId), Ready s h →
    (s.edit.holder ≠ some h → OnlyAnswers (.editClose h) h (.bare .noSession) s) ∧
    (s.edit.holder = some h →
      ∃ t, exec (.editClose h) s = .next t ∧
        t = { s with hosts := t.hosts, ports := t.ports, edit := t.edit } ∧
        t.edit =
          { holder := none, staged := [], idleDeadline := none, commitInFlight := false, commitBoundUs := none } ∧
        t.host h = { s.host h with editState := .none } ∧ (∀ x, x ≠ h → t.host x = s.host x) ∧
        Answers (.editClose h) h (.okWith [BitVec.ofNat 8 s.edit.staged.length]) s t)

/-- EDIT_COMMIT (R134); the bound's own field is the model's (assumption log 7). -/
def Obligations.EditCommitBeginsTheCommit : Prop :=
  ∀ (s : State) (h : HostId), Ready s h →
    (s.edit.holder ≠ some h → OnlyAnswers (.editCommit h) h (.bare .noSession) s) ∧
    (s.edit.holder = some h →
      ∃ t, exec (.editCommit h) s = .next t ∧
        t = { s with hosts := t.hosts, ports := t.ports, edit := t.edit } ∧
        t.edit =
          { s.edit with commitInFlight := true, idleDeadline := none, commitBoundUs := some (s.clock.us + 2000) } ∧
        t.host h = { s.host h with editState := .commit } ∧ (∀ x, x ≠ h → t.host x = s.host x) ∧
        t.port h = workingPort (.editCommit h) (s.port h) ∧ ∀ x, x ≠ h → t.port x = s.port x)

/-- A completion that finds a conflict (R134, R135). -/
def Obligations.CommitConflictAppliesNothing : Prop :=
  ∀ (s : State) (h : HostId) (p : Nat) (e : StagedEntry),
    s.edit.holder = some h → s.edit.commitInFlight = true → s.edit.staged[p]? = some e → conflicts s e = true →
    (∀ q < p, ∀ x ∈ s.edit.staged[q]?, conflicts s x = false) →
    ∃ t, exec .commitCompletion s = .next t ∧
      t = { s with hosts := t.hosts, ports := t.ports, edit := t.edit } ∧
      t.edit =
        { s.edit with commitInFlight := false, idleDeadline := some (s.now + 250), commitBoundUs := none } ∧
      t.host h = { s.host h with editState := .session } ∧ (∀ x, x ≠ h → t.host x = s.host x) ∧
      AnswersWaiting h { status := .conflict, data := [entryKind e, entryNumber e, BitVec.ofNat 8 p] } s t

/-- A completion that applies (R136, R137). The premise EditKept is part of the invariant of EveryStepKeepsTheInvariant. R6's HELD markers are set in EACH mode alone (assumption log 12). -/
def Obligations.CommitAppliesEveryEntry : Prop :=
  ∀ (s : State) (h : HostId),
    EditKept s → s.edit.holder = some h → s.edit.commitInFlight = true →
    (∀ e ∈ s.edit.staged, conflicts s e = false) →
    ∃ t, exec .commitCompletion s = .next t ∧
      t =
        { s with
          sources := t.sources, lines := t.lines, lanes := t.lanes, hosts := t.hosts, atn := t.atn, edit := t.edit
          ports := t.ports } ∧
      (∀ (i : SourceId) (c : SourceConfig), StagedEntry.source i c ∈ s.edit.staged → t.source i = committed s i c) ∧
      (∀ i : SourceId, (∀ c, StagedEntry.source i c ∉ s.edit.staged) → t.source i = s.source i) ∧
      (∀ (k : LaneId) (limit : Nat), StagedEntry.lane k limit ∈ s.edit.staged → t.creditLimit k = limit) ∧
      (∀ k : LaneId, (∀ limit, StagedEntry.lane k limit ∉ s.edit.staged) → t.creditLimit k = s.creditLimit k) ∧
      (∀ (l : LineId) (us : Nat),
        StagedEntry.line l us ∈ s.edit.staged → t.line l = { s.line l with settleUs := us }) ∧
      (∀ l : LineId, (∀ us, StagedEntry.line l us ∉ s.edit.staged) → t.line l = s.line l) ∧
      t.edit =
        { holder := none, staged := [], idleDeadline := none, commitInFlight := false, commitBoundUs := none } ∧
      t.host h = { s.host h with editState := .none } ∧ (∀ x, x ≠ h → t.host x = s.host x) ∧
      AtnShown t ∧ AnswersWaiting h (.okWith [BitVec.ofNat 8 s.edit.staged.length]) s t

/-- IDLE_EXPIRY (R128, R142, R20). -/
def Obligations.IdleExpiryEndsTheSession : Prop :=
  ∀ (s : State) (h : HostId) (d : Millis),
    Holds s h → s.edit.idleDeadline = some d → reachedMs s.now d = true →
    ∃ t, exec .idleExpiry s = .next t ∧
      t = { s with sources := t.sources, hosts := t.hosts, atn := t.atn, edit := t.edit, faults := t.faults } ∧
      t.edit =
        { holder := none, staged := [], idleDeadline := none, commitInFlight := false, commitBoundUs := none } ∧
      t.host h = { s.host h with editState := .none } ∧ (∀ x, x ≠ h → t.host x = s.host x) ∧
      t.faults = stored s.faults s.now (.editExpired h) ∧ t.source 63 = noticed s (s.source 63) ∧
      (∀ i : SourceId, i ≠ 63 → t.source i = s.source i) ∧ AtnShown t

/-- These records change through the edit session, and through nothing else a host can send (Chapter 8, introduction; R39, R26). -/
def Obligations.ConfigurationChangesAtCommitsAlone : Prop :=
  ∀ (s t : State) (c : Instr), exec c s = .next t → c ≠ .commitCompletion → c ≠ .deviceReset →
    (∀ i : SourceId, (t.source i).config = (s.source i).config) ∧
    (∀ k : LaneId, t.creditLimit k = s.creditLimit k) ∧ ∀ l : LineId, (t.line l).settleUs = (s.line l).settleUs

/-- Host release (R117 to R121, R156). The premise is an invariant of EveryStepKeepsTheInvariant. -/
def Obligations.HostReleaseTakesEverythingBack : Prop :=
  ∀ (s : State) (h : HostId),
    TicketsUnique s → (s.port h).state ≠ .down →
    ∃ t, exec (.hostRelease h) s = .next t ∧
      t =
        { s with
          sources := t.sources, hosts := t.hosts, atn := t.atn, waiting := t.waiting, slots := t.slots, edit := t.edit
          faults := t.faults, ports := t.ports } ∧
      (∀ k : SlotId, t.slot k =
        if (s.slot k).ticket.any (fun u => u.host == h) then { s.slot k with ticket := none } else s.slot k) ∧
      (if s.ticketsOf h ≠ [] ∨ s.edit.holder = some h then
        t.faults = stored s.faults s.now (.hostLost h (s.ticketsOf h).length (s.edit.holder == some h)) ∧
          t.source 63 = noticed t (released s t h 63)
      else t.faults = s.faults ∧ t.source 63 = released s t h 63) ∧
      (∀ i : SourceId, i ≠ 63 → t.source i = released s t h i) ∧
      t.host h = { attached := false, laneMask := 0, editState := .none } ∧
      (∀ x, x ≠ h → t.host x = s.host x) ∧
      t.edit =
        (if s.edit.holder = some h then
          { holder := none, staged := [], idleDeadline := none, commitInFlight := false, commitBoundUs := none }
        else s.edit) ∧
      t.waitingClaim h = none ∧
      (∀ x, x ≠ h → t.waitingClaim x = s.waitingClaim x) ∧
      t.port h =
        { state := .down, priorState := none, receiveBuffer := [], answerBuffer := [], prevUnread := false
          refused := false, ignoring := false, shiftedOut := (s.port h).shiftedOut } ∧
      (∀ x, x ≠ h → t.port x = s.port x) ∧
      AtnShown t

/-- DOWN_DEASSERTION (R123, R156); that a port in DOWN is one whose DOWN input is asserted, and that the command says whether a window is open, is assumption log 16. -/
def Obligations.DownKeepsThePortUntilDeassertion : Prop :=
  ∀ (s : State) (d : Deassertion), (s.port d.host).state = .down →
    ∃ t, exec (.downDeassertion d) s = .next t ∧ t = { s with ports := t.ports } ∧
      t.port d.host =
        { state := .idle, priorState := none, receiveBuffer := [], answerBuffer := [], prevUnread := false
          refused := false, ignoring := d.windowOpen, shiftedOut := (s.port d.host).shiftedOut } ∧
      ∀ x, x ≠ d.host → t.port x = s.port x

/-- Device reset (R159 and the Reset columns of R2, R3, R26, R39, R111, R124, R140, R149). The state each port is found in standing for its DOWN input, the flag `sampled` and the command that ends the reset are assumption logs 13 and 16; `shiftedOut` is assumption log 10. -/
def Obligations.DeviceResetGivesResetValues : Prop :=
  ∀ (s : State),
    ∃ t, exec .deviceReset s = .next t ∧
      (∀ i : SourceId, t.source i =
        { config :=
            { enabled := false, mode := .one, lane := 0, rank := 15, hostSet := 0, handle := 0, leaseMs := 0
              retryLimit := 0, line := 0, trigger := .rise, posters := 0, echo := false }
          state := .off, pendingCount := 0, overflowMark := false, attempts := 0, argQueue := [], mailbox := 0
          marker := Vector.replicate 4 .clear, attemptsPerHost := Vector.replicate 4 0 }) ∧
      (∀ l : LineId, (t.line l).settleDeadline = none ∧ (t.line l).settling = false ∧ (t.line l).settleUs = 20) ∧
      (∀ k : LaneId, t.creditLimit k = 1) ∧
      (∀ h : HostId, t.host h = { attached := false, laneMask := 0, editState := .none }) ∧
      (∀ h : HostId, t.waitingClaim h = none) ∧
      t.rotation = 3 ∧
      (∀ k : SlotId, t.slot k = { sequence := 0, ticket := none }) ∧
      t.edit =
        { holder := none, staged := [], idleDeadline := none, commitInFlight := false, commitBoundUs := none } ∧
      t.faults = { records := [], nextSeq := 1 } ∧
      (∀ h : HostId, t.atnOf h = false) ∧
      t.now = 0 ∧
      (∀ h : HostId, t.port h =
        { state := if (s.port h).state = .down then .down else .idle, priorState := none, receiveBuffer := []
          answerBuffer := [], prevUnread := false, refused := false, ignoring := false, shiftedOut := [] }) ∧
      t.sampled = false

/-- Commands for events that do not arise (assumption log 5). A deadline is reached, on the wrapping count, when it lies fewer than 2^31 milliseconds back (assumption log 9). -/
def Obligations.EventsThatDoNotAriseChangeNothing : Prop :=
  (∀ s : State, (∀ h : HostId, s.waitingClaim h = none) → exec .claimTaken s = .next s) ∧
  (∀ s : State, s.edit.holder = none ∨ s.edit.commitInFlight = false → exec .commitCompletion s = .next s) ∧
  (∀ s : State,
    (s.edit.holder = none ∨ s.edit.commitInFlight = true ∨ ∀ d ∈ s.edit.idleDeadline, reachedMs s.now d = false) →
    exec .idleExpiry s = .next s) ∧
  (∀ (s : State) (k : SlotId),
    (∀ tk ∈ (s.slot k).ticket, ∀ d ∈ tk.deadlineMs, reachedMs s.now d = false) → exec (.leaseExpiry k) s = .next s) ∧
  (∀ (s : State) (h : HostId), (s.port h).state = .down → exec (.hostRelease h) s = .next s) ∧
  (∀ (s : State) (d : Deassertion), (s.port d.host).state ≠ .down → exec (.downDeassertion d) s = .next s) ∧
  (∀ (s : State) (l : LineId), (∀ d ∈ (s.line l).settleDeadline, s.clock.us < d) →
    exec (.settleExpiry l) s = .next s) ∧
  (∀ (s : State) (found : ResetEnd), s.sampled = true → exec (.startUpAcceptance found) s = .next s) ∧
  (∀ (s : State) (l : LineId) (level : Bool), s.sampled = false ∨ (s.line l).rawLevel = level →
    exec (.rawChange l level) s = .next s) ∧
  (∀ (s : State) (w : PortWindow), Listens s w.host → (s.port w.host).state ≠ .down →
    (s.port w.host).state ≠ .working → exec (.frameWhileWorking w) s = .next s) ∧
  ∀ now d : Millis, reachedMs now d = true ↔ (now - d).toNat < 2 ^ 31

/-- The start-up acceptance (R34) at the end of a reset (R159); `sampled` is the model's own flag (assumption log 4), and that this one command ends the reset and says which windows are open is assumption log 13. -/
def Obligations.FirstSamplesReportNoEdge : Prop :=
  State.reset.sampled = false ∧ (∀ s : State, ∃ t, exec .deviceReset s = .next t ∧ t.sampled = false) ∧
  ∀ (s : State) (found : ResetEnd), s.sampled = false →
    ∃ t, exec (.startUpAcceptance found) s = .next t ∧
      t = { s with lines := t.lines, ports := t.ports, sampled := true } ∧
      (∀ l : LineId, t.line l =
        { s.line l with
          rawLevel := found.levels.getLsbD l.val, acceptedLevel := found.levels.getLsbD l.val }) ∧
      ∀ h : HostId, t.port h =
        if (s.port h).state = .down then s.port h
        else { s.port h with ignoring := found.openWindows.getLsbD h.val }

/-- Raw changes that report no edge (R27, R28, R29). -/
def Obligations.RawChangesBeginAndCancelSettling : Prop :=
  ∀ (s : State) (l : LineId) (level : Bool), s.sampled = true → (s.line l).rawLevel ≠ level →
    ((s.line l).settleDeadline = none → 0 < (s.line l).settleUs →
      ∃ t, exec (.rawChange l level) s = .next t ∧ t = { s with lines := t.lines } ∧
        t.line l =
          { s.line l with rawLevel := level, settleDeadline := some (s.clock.us + (s.line l).settleUs) } ∧
        ∀ j, j ≠ l → t.line j = s.line j) ∧
    ((s.line l).settleDeadline ≠ none →
      ∃ t, exec (.rawChange l level) s = .next t ∧ t = { s with lines := t.lines } ∧
        t.line l = { s.line l with rawLevel := level, settleDeadline := none } ∧ ∀ j, j ≠ l → t.line j = s.line j)

/-- Accepted edges (R30, R31, with the report of R32, R11 to R16, the losses of R13 and their stores). The order of several records of one edge is free (assumption log 3), and they are stored after every watch source has taken the edge (assumption log 18). -/
def Obligations.AcceptedEdgesReachEveryWatchSource : Prop :=
  (∀ (s : State) (l : LineId) (level : Bool),
    s.sampled = true → (s.line l).rawLevel ≠ level → (s.line l).settleDeadline = none → (s.line l).settleUs = 0 →
    ∃ t, exec (.rawChange l level) s = .next t ∧ EdgeAccepted s t l level) ∧
  ∀ (s : State) (l : LineId) (d : Nat), (s.line l).settleDeadline = some d → d ≤ s.clock.us →
    ∃ t, exec (.settleExpiry l) s = .next t ∧ EdgeAccepted s t l (s.line l).rawLevel

/-- The judging of a frame (R150, R151), against R161's table of codes and operand lengths as `requestTable` and `StageLength` list it. -/
def Obligations.FramesAreJudgedInOrder : Prop :=
  (∀ e : Nat, judgeFrame [] e = .incomplete) ∧ (∀ (code : Byte) (e : Nat), judgeFrame [code] e = .incomplete) ∧
  ∀ (code len : Byte) (rest : List Byte) (e : Nat),
    (40 < len.toNat → judgeFrame (code :: len :: rest) e = .badFrame) ∧
    (len.toNat ≤ 40 → rest.length < len.toNat + 1 → judgeFrame (code :: len :: rest) e = .incomplete) ∧
    (len.toNat ≤ 40 → len.toNat + 1 < rest.length → judgeFrame (code :: len :: rest) e = .badFrame) ∧
    (len.toNat ≤ 40 → rest.length = len.toNat + 1 → 0 < e → judgeFrame (code :: len :: rest) e = .badFrame) ∧
    ∀ (operands : List Byte) (check : Byte), len.toNat ≤ 40 → operands.length = len.toNat →
      rest = operands ++ [check] → e = 0 →
      (check ≠ crc8 (code :: len :: operands) → judgeFrame (code :: len :: rest) e = .badFrame) ∧
      (check = crc8 (code :: len :: operands) → ¬ NamesRequest code →
        judgeFrame (code :: len :: rest) e = .unknown) ∧
      (check = crc8 (code :: len :: operands) → NamesRequest code → ¬ LengthAllowed code operands →
        judgeFrame (code :: len :: rest) e = .badFrame) ∧
      (check = crc8 (code :: len :: operands) → LengthAllowed code operands →
        judgeFrame (code :: len :: rest) e = .good code operands)

/-- Windows of bytes (R148, R150, R151, R153). That a window is one command, which bytes judged good turn into the request they spell, is assumption log 8; the bytes put out are kept in the model's own `shiftedOut`, those of a window with another direction byte being free values (assumption log 10); that INCOMPLETE_FRAME also carries the windows of R148 without a request frame is assumption log 19. -/
def Obligations.RejectedAndIncompleteWindows : Prop :=
  (∀ (s : State) (h : HostId) (bytes : List Byte) (e : Nat) (c : Instr) (st : Status),
    OpensRequest c h bytes e → Ready s h →
    ((judgeFrame bytes e = .badFrame ∧ st = .badFrame) ∨ (judgeFrame bytes e = .unknown ∧ st = .unknown)) →
    ∃ t, exec c s = .next t ∧ t = { s with ports := t.ports } ∧ Answers c h (.bare st) s t) ∧
  (∀ (s : State) (h : HostId) (bytes : List Byte) (e : Nat) (c : Instr),
    OpensRequest c h bytes e → Ready s h → judgeFrame bytes e = .incomplete →
    ∃ t, exec c s = .next t ∧ t = { s with ports := t.ports } ∧
      t.port h = { s.port h with priorState := none, receiveBuffer := [], shiftedOut := zerosOut c } ∧
      ∀ x, x ≠ h → t.port x = s.port x) ∧
  (∀ (s : State) (h : HostId) (bytes : List Byte) (e : Nat) (c i : Instr) (code : Byte) (operands : List Byte),
    OpensRequest c h bytes e → judgeFrame bytes e = .good code operands →
    requestParts i = some (h, code, operands) → exec c s = exec i s) ∧
  (∀ (s : State) (h : HostId) (bytes : List Byte) (e : Nat),
    exec (.incompleteFrame h { direction := some 0xC3, bytes := bytes } e) s =
      exec (.answerRead h bytes.length) s) ∧
  (∀ (s : State) (h : HostId) (d : Byte) (bytes : List Byte) (e : Nat),
    Listens s h → (s.port h).state ≠ .down → d ≠ 0x5A → d ≠ 0xC3 →
    ∃ t, exec (.incompleteFrame h { direction := some d, bytes := bytes } e) s = .next t ∧
      t = { s with ports := t.ports, drawn := t.drawn } ∧ (∀ x, x ≠ h → t.port x = s.port x) ∧
      ∃ free, free.length = bytes.length ∧ t.port h = { s.port h with shiftedOut := 0 :: free }) ∧
  ∀ (s : State) (h : HostId) (bytes : List Byte) (e : Nat), Listens s h → (s.port h).state ≠ .down →
    ∃ t, exec (.incompleteFrame h { direction := none, bytes := bytes } e) s = .next t ∧
      t = { s with ports := t.ports } ∧ (∀ x, x ≠ h → t.port x = s.port x) ∧
      t.port h = { s.port h with shiftedOut := [] }

/-- Request windows on a port that is WORKING (R154), and windows that are ignored: in DOWN (R148, R156), in a reset (R159), or open when DOWN or a reset ended (R156, R159). That a request command on such a port is a window of R148 or R154 is assumption log 15, DEDUCED; that a reset lasts and which windows are open is said by assumption logs 13 and 16. -/
def Obligations.WorkingAndDownPortsTakeNoRequest : Prop :=
  (∀ (s : State) (h : HostId) (c : Instr), Listens s h → (s.port h).state = .working →
    ((∃ code operands, requestParts c = some (h, code, operands)) ∨ (∃ bytes e, OpensRequest c h bytes e) ∨
      ∃ n, c = .frameWhileWorking { host := h, count := n }) →
    ∃ t, exec c s = .next t ∧ t = { s with ports := t.ports } ∧
      t.port h = { s.port h with refused := true, shiftedOut := zerosOut c } ∧ ∀ x, x ≠ h → t.port x = s.port x) ∧
  ∀ (s : State) (h : HostId) (c : Instr),
    s.sampled = false ∨ (s.port h).state = .down ∨ (s.port h).ignoring = true →
    ((∃ code operands, requestParts c = some (h, code, operands)) ∨ (∃ bytes e, c = .frameRejected h bytes e) ∨
      (∃ window e, c = .incompleteFrame h window e) ∨ (∃ n, c = .frameWhileWorking { host := h, count := n }) ∨
      ∃ n, c = .answerRead h n) →
    ∃ t, exec c s = .next t ∧ t = { s with ports := t.ports } ∧
      t.port h = { s.port h with ignoring := false, shiftedOut := [] } ∧ ∀ x, x ≠ h → t.port x = s.port x

/-- Answer reads (R155, R148); the bytes put out are kept in the model's own field `shiftedOut` (assumption log 10). -/
def Obligations.AnswersAreReadOutAndKeptUntilWhole : Prop :=
  ∀ (s : State) (h : HostId) (count : Nat), Listens s h →
    (s.port h).state = .answered ∨ (s.port h).state = .working ∨ (s.port h).state = .idle →
    ∃ t, exec (.answerRead h count) s = .next t ∧ t = { s with ports := t.ports } ∧
      (∀ x, x ≠ h → t.port x = s.port x) ∧
      ((s.port h).state = .answered → (s.port h).answerBuffer.length ≤ count →
        t.port h =
          { s.port h with
            state := .idle, answerBuffer := [], shiftedOut := 0 :: outBytes (s.port h).answerBuffer count }) ∧
      ((s.port h).state = .answered → count < (s.port h).answerBuffer.length →
        t.port h = { s.port h with shiftedOut := 0 :: outBytes (s.port h).answerBuffer count }) ∧
      ((s.port h).state = .working →
        t.port h =
          { s.port h with
            shiftedOut := 0 :: outBytes [0x0D, flagsByte (s.atnOf h) (s.attached h) false false] count }) ∧
      ((s.port h).state = .idle →
        t.port h =
          { s.port h with
            shiftedOut := 0 :: outBytes [0x0E, flagsByte (s.atnOf h) (s.attached h) false false] count })

/-- Request frames both ways (R150 to R153, R160, R161). -/
def Obligations.RequestFramesComeBack : Prop :=
  (∀ (h : HostId) (a b : Byte) (n v : Word) (record : List Byte),
    [Instr.attach h a, .detach h, .setMask h a, .claim h a, .done h n, .defer h n, .extend h n, .readSource h a,
        .readStatus h, .readLine h a, .readTickets h a, .post h a v, .rearm h a, .faultTake h, .faultPeek h,
        .editOpen h, .editStage h a b record, .editDrop h a b, .editList h a, .editCommit h, .editClose h].map
        requestParts =
      [some (h, 0x10, [a]), some (h, 0x11, []), some (h, 0x12, [a]), some (h, 0x20, [a]),
        some (h, 0x21, twoBytes n.toNat), some (h, 0x22, twoBytes n.toNat), some (h, 0x23, twoBytes n.toNat),
        some (h, 0x30, [a]), some (h, 0x31, []), some (h, 0x32, [a]), some (h, 0x33, [a]),
        some (h, 0x40, a :: twoBytes v.toNat), some (h, 0x41, [a]), some (h, 0x50, []), some (h, 0x51, []),
        some (h, 0x60, []), some (h, 0x61, a :: b :: record), some (h, 0x62, [a, b]), some (h, 0x63, [a]),
        some (h, 0x64, []), some (h, 0x65, [])]) ∧
  (∀ (i : Instr) (h : HostId) (code : Byte) (operands : List Byte),
    requestParts i = some (h, code, operands) → i.wellFormed = true →
    judgeFrame (frameOf code operands) 0 = .good code operands ∧ decodeRequest h code operands = some i) ∧
  ∀ (bytes : List Byte) (e : Nat) (h : HostId) (code : Byte) (operands : List Byte),
    judgeFrame bytes e = .good code operands →
    bytes = frameOf code operands ∧ e = 0 ∧ LengthAllowed code operands ∧
      ∃ i, decodeRequest h code operands = some i ∧ i.wellFormed = true ∧
        requestParts i = some (h, code, operands)

/-- The check byte (R152) and answer frames (R162). -/
def Obligations.CheckBytesAndAnswerFrames : Prop :=
  (crc8 [] = 0 ∧
  (∀ (bs : List Byte) (b : Byte), crc8 (bs ++ [b]) = Nat.iterate crcShift 8 (crc8 bs ^^^ b)) ∧
  (∀ r : Byte, crcShift r = if r.getLsbD 7 then (r <<< 1) ^^^ 0x07 else r <<< 1) ∧
  crc8 [0x31] = 0x97 ∧ crc8 [0x31, 0x00] = 0xEC ∧ ∀ bs : List Byte, crc8 (bs ++ [crc8 bs]) = 0) ∧
  (∀ (a : Answer) (flags : Byte), a.data.length ≤ 60 →
    ∃ covered, covered = a.status.code :: flags :: BitVec.ofNat 8 a.data.length :: a.data ∧
      answerFrame a flags = covered ++ [crc8 covered] ∧ (BitVec.ofNat 8 a.data.length).toNat = a.data.length) ∧
  (∀ a b c d : Bool,
    (flagsByte a b c d).getLsbD 0 = a ∧ (flagsByte a b c d).getLsbD 1 = b ∧ (flagsByte a b c d).getLsbD 2 = c ∧
      (flagsByte a b c d).getLsbD 3 = d ∧ ∀ n, 4 ≤ n → (flagsByte a b c d).getLsbD n = false) ∧
  [Status.ok, .none, .full, .busy, .denied, .stale, .badValue, .badFrame, .unknown, .notAttached, .noSession,
      .wrongState, .conflict, .wait, .empty].map Status.code =
    [0x00, 0x01, 0x02, 0x03, 0x04, 0x05, 0x06, 0x07, 0x08, 0x09, 0x0A, 0x0B, 0x0C, 0x0D, 0x0E]

/-- The four port controllers are independent: events on one port do not reach another port's state (Chapter 10, introduction). -/
def Obligations.PortsDoNotReachOneAnother : Prop :=
  ∀ (s t : State) (c : Instr) (h : HostId), exec c s = .next t →
    ((∃ code operands, requestParts c = some (h, code, operands)) ∨ (∃ bytes e, c = .frameRejected h bytes e) ∨
      (∃ window e, c = .incompleteFrame h window e) ∨ (∃ n, c = .frameWhileWorking { host := h, count := n }) ∨
      (∃ n, c = .answerRead h n) ∨ c = .hostRelease h ∨
      ∃ o, c = .downDeassertion { host := h, windowOpen := o }) →
    ∀ x : HostId, x ≠ h → t.port x = s.port x ∧ t.waitingClaim x = s.waitingClaim x ∧ t.host x = s.host x

/-- The invariant holds after reset. Not the manual's but the model's are in it: the levels of a line that has had no sample (log 4), the agreement of the two clocks with usOfMs (logs 6, 11), commitBoundUs (log 7), no port found RECEIVING (log 8), the markers of a ONE-mode source (log 12), what holds while a reset lasts (log 13), WORKING for a claim or a commit alone (log 14). -/
def Obligations.ResetStateIsWellKept : Prop :=
  Inv State.reset

/-- Each recomputation takes place as part of the event that changed the state (R49). -/
def Obligations.AttentionIsAlwaysCurrent : Prop :=
  ∀ s t : State, AtnKept s → step s = .next t → AtnKept t

/-- The fault queue's relations (R140, R142); sources in OFF or FAULTED (R5), no attempts counted in OFF (R7, R89), and S63 is never FAULTED (R8, R92). -/
def Obligations.FaultQueueAndIdleSourcesStayInOrder : Prop :=
  (∀ s t : State, FaultsKept s → step s = .next t → FaultsKept t) ∧
  ∀ s t : State, (∀ i : SourceId, StateKept i (s.source i)) → step s = .next t →
    ∀ i : SourceId, StateKept i (t.source i)

/-- The relations of R57, R111, R124, R125, R134, R149, R156. The model's own among them: a commit's bound, present exactly while one is in flight (assumption log 7); no window found half received between two commands (assumption log 8); a port WORKING for a claim or a commit alone (assumption log 14). The premise ResetHeld (R159; assumption log 13) is the invariant of LimitsAndLinesStayInRange. -/
def Obligations.SessionPortsAndClaimsAgree : Prop :=
  ∀ s t : State, ResetHeld s → EditKept s ∧ PortsKept s → step s = .next t → EditKept t ∧ PortsKept t

/-- The ranges and relations of R25, R26, R39, R157, R159; the premise EditKept says that every staged entry is valid. The agreement of the two clocks and usOfMs are the model's own (assumption logs 6 and 11), and so is the flag `sampled`, no while a reset lasts (assumption logs 4 and 13). -/
def Obligations.LimitsAndLinesStayInRange : Prop :=
  (∀ s t : State, EditKept s → LimitsKept s ∧ LinesKept s ∧ ClockKept s → step s = .next t →
    LimitsKept t ∧ LinesKept t ∧ ClockKept t) ∧
  ∀ s t : State, ResetHeld s → step s = .next t → ResetHeld t

/-- The whole invariant is kept by every step, from every state that meets it. Not the manual's but the model's are in it: the levels of a line that has had no sample (log 4), the agreement of the two clocks with usOfMs (logs 6, 11), commitBoundUs (log 7), no port found RECEIVING (log 8), the markers of a ONE-mode source (log 12), what holds while a reset lasts (log 13), WORKING for a claim or a commit alone (log 14). -/
def Obligations.EveryStepKeepsTheInvariant : Prop :=
  ∀ s t : State, Inv s → step s = .next t → Inv t
end

