-- ==== Sys2Proof/Laws/State.lean ====
section
/-! SUPPORT. One lemma for each field and each update of the state, and for each look-up: an update of one table
leaves every other table, and what is read of it, as it was. -/

namespace Sys2Proof.Machine

variable (s : State)

/-! ### setSource -/
@[simp] theorem State.setSource_sources (i : SourceId) (r : Source) : (s.setSource i r).sources = s.sources.set i r := rfl
@[simp] theorem State.setSource_lines (i : SourceId) (r : Source) : (s.setSource i r).lines = s.lines := rfl
@[simp] theorem State.setSource_sampled (i : SourceId) (r : Source) : (s.setSource i r).sampled = s.sampled := rfl
@[simp] theorem State.setSource_lanes (i : SourceId) (r : Source) : (s.setSource i r).lanes = s.lanes := rfl
@[simp] theorem State.setSource_hosts (i : SourceId) (r : Source) : (s.setSource i r).hosts = s.hosts := rfl
@[simp] theorem State.setSource_atn (i : SourceId) (r : Source) : (s.setSource i r).atn = s.atn := rfl
@[simp] theorem State.setSource_waiting (i : SourceId) (r : Source) : (s.setSource i r).waiting = s.waiting := rfl
@[simp] theorem State.setSource_rotation (i : SourceId) (r : Source) : (s.setSource i r).rotation = s.rotation := rfl
@[simp] theorem State.setSource_slots (i : SourceId) (r : Source) : (s.setSource i r).slots = s.slots := rfl
@[simp] theorem State.setSource_edit (i : SourceId) (r : Source) : (s.setSource i r).edit = s.edit := rfl
@[simp] theorem State.setSource_faults (i : SourceId) (r : Source) : (s.setSource i r).faults = s.faults := rfl
@[simp] theorem State.setSource_ports (i : SourceId) (r : Source) : (s.setSource i r).ports = s.ports := rfl
@[simp] theorem State.setSource_clock (i : SourceId) (r : Source) : (s.setSource i r).clock = s.clock := rfl
@[simp] theorem State.setSource_drawn (i : SourceId) (r : Source) : (s.setSource i r).drawn = s.drawn := rfl
@[simp] theorem State.setSource_pending (i : SourceId) (r : Source) : (s.setSource i r).pending = s.pending := rfl
@[simp] theorem State.setSource_line (i : SourceId) (r : Source) (x : LineId) : (s.setSource i r).line x = s.line x := rfl
@[simp] theorem State.setSource_creditLimit (i : SourceId) (r : Source) (x : LaneId) : (s.setSource i r).creditLimit x = s.creditLimit x := rfl
@[simp] theorem State.setSource_host (i : SourceId) (r : Source) (x : HostId) : (s.setSource i r).host x = s.host x := rfl
@[simp] theorem State.setSource_atnOf (i : SourceId) (r : Source) (x : HostId) : (s.setSource i r).atnOf x = s.atnOf x := rfl
@[simp] theorem State.setSource_waitingClaim (i : SourceId) (r : Source) (x : HostId) : (s.setSource i r).waitingClaim x = s.waitingClaim x := rfl
@[simp] theorem State.setSource_slot (i : SourceId) (r : Source) (x : SlotId) : (s.setSource i r).slot x = s.slot x := rfl
@[simp] theorem State.setSource_port (i : SourceId) (r : Source) (x : HostId) : (s.setSource i r).port x = s.port x := rfl
@[simp] theorem State.setSource_attached (i : SourceId) (r : Source) (x : HostId) : (s.setSource i r).attached x = s.attached x := rfl
@[simp] theorem State.setSource_now (i : SourceId) (r : Source) : (s.setSource i r).now = s.now := rfl
@[simp] theorem State.setSource_liveTickets (i : SourceId) (r : Source) : (s.setSource i r).liveTickets = s.liveTickets := rfl
@[simp] theorem State.setSource_liveTotal (i : SourceId) (r : Source) : (s.setSource i r).liveTotal = s.liveTotal := rfl
@[simp] theorem State.setSource_lowestFree (i : SourceId) (r : Source) : (s.setSource i r).lowestFree = s.lowestFree := rfl
@[simp] theorem State.setSource_liveCount (i : SourceId) (r : Source) (x : HostId) (z : LaneId) : (s.setSource i r).liveCount x z = s.liveCount x z := rfl
@[simp] theorem State.setSource_holds (i : SourceId) (r : Source) (x : SourceId) (z : HostId) : (s.setSource i r).holds x z = s.holds x z := rfl
@[simp] theorem State.setSource_ticketsOf (i : SourceId) (r : Source) (x : HostId) : (s.setSource i r).ticketsOf x = s.ticketsOf x := rfl
@[simp] theorem State.setSource_sourceTicket (i : SourceId) (r : Source) (x : SourceId) : (s.setSource i r).sourceTicket x = s.sourceTicket x := rfl
@[simp] theorem State.setSource_coveredBy (i : SourceId) (r : Source) (x : SourceId) : (s.setSource i r).coveredBy x = s.coveredBy x := rfl
@[simp] theorem State.setSource_heldArguments (i : SourceId) (r : Source) (x : SourceId) : (s.setSource i r).heldArguments x = s.heldArguments x := rfl
@[simp] theorem State.setSource_findLive (i : SourceId) (r : Source) (x : Word) : (s.setSource i r).findLive x = s.findLive x := rfl

/-! ### setLine -/
@[simp] theorem State.setLine_sources (i : LineId) (l : Line) : (s.setLine i l).sources = s.sources := rfl
@[simp] theorem State.setLine_lines (i : LineId) (l : Line) : (s.setLine i l).lines = s.lines.set i l := rfl
@[simp] theorem State.setLine_sampled (i : LineId) (l : Line) : (s.setLine i l).sampled = s.sampled := rfl
@[simp] theorem State.setLine_lanes (i : LineId) (l : Line) : (s.setLine i l).lanes = s.lanes := rfl
@[simp] theorem State.setLine_hosts (i : LineId) (l : Line) : (s.setLine i l).hosts = s.hosts := rfl
@[simp] theorem State.setLine_atn (i : LineId) (l : Line) : (s.setLine i l).atn = s.atn := rfl
@[simp] theorem State.setLine_waiting (i : LineId) (l : Line) : (s.setLine i l).waiting = s.waiting := rfl
@[simp] theorem State.setLine_rotation (i : LineId) (l : Line) : (s.setLine i l).rotation = s.rotation := rfl
@[simp] theorem State.setLine_slots (i : LineId) (l : Line) : (s.setLine i l).slots = s.slots := rfl
@[simp] theorem State.setLine_edit (i : LineId) (l : Line) : (s.setLine i l).edit = s.edit := rfl
@[simp] theorem State.setLine_faults (i : LineId) (l : Line) : (s.setLine i l).faults = s.faults := rfl
@[simp] theorem State.setLine_ports (i : LineId) (l : Line) : (s.setLine i l).ports = s.ports := rfl
@[simp] theorem State.setLine_clock (i : LineId) (l : Line) : (s.setLine i l).clock = s.clock := rfl
@[simp] theorem State.setLine_drawn (i : LineId) (l : Line) : (s.setLine i l).drawn = s.drawn := rfl
@[simp] theorem State.setLine_pending (i : LineId) (l : Line) : (s.setLine i l).pending = s.pending := rfl
@[simp] theorem State.setLine_source (i : LineId) (l : Line) (x : SourceId) : (s.setLine i l).source x = s.source x := rfl
@[simp] theorem State.setLine_creditLimit (i : LineId) (l : Line) (x : LaneId) : (s.setLine i l).creditLimit x = s.creditLimit x := rfl
@[simp] theorem State.setLine_host (i : LineId) (l : Line) (x : HostId) : (s.setLine i l).host x = s.host x := rfl
@[simp] theorem State.setLine_atnOf (i : LineId) (l : Line) (x : HostId) : (s.setLine i l).atnOf x = s.atnOf x := rfl
@[simp] theorem State.setLine_waitingClaim (i : LineId) (l : Line) (x : HostId) : (s.setLine i l).waitingClaim x = s.waitingClaim x := rfl
@[simp] theorem State.setLine_slot (i : LineId) (l : Line) (x : SlotId) : (s.setLine i l).slot x = s.slot x := rfl
@[simp] theorem State.setLine_port (i : LineId) (l : Line) (x : HostId) : (s.setLine i l).port x = s.port x := rfl
@[simp] theorem State.setLine_attached (i : LineId) (l : Line) (x : HostId) : (s.setLine i l).attached x = s.attached x := rfl
@[simp] theorem State.setLine_now (i : LineId) (l : Line) : (s.setLine i l).now = s.now := rfl
@[simp] theorem State.setLine_liveTickets (i : LineId) (l : Line) : (s.setLine i l).liveTickets = s.liveTickets := rfl
@[simp] theorem State.setLine_liveTotal (i : LineId) (l : Line) : (s.setLine i l).liveTotal = s.liveTotal := rfl
@[simp] theorem State.setLine_lowestFree (i : LineId) (l : Line) : (s.setLine i l).lowestFree = s.lowestFree := rfl
@[simp] theorem State.setLine_liveCount (i : LineId) (l : Line) (x : HostId) (z : LaneId) : (s.setLine i l).liveCount x z = s.liveCount x z := rfl
@[simp] theorem State.setLine_holds (i : LineId) (l : Line) (x : SourceId) (z : HostId) : (s.setLine i l).holds x z = s.holds x z := rfl
@[simp] theorem State.setLine_ticketsOf (i : LineId) (l : Line) (x : HostId) : (s.setLine i l).ticketsOf x = s.ticketsOf x := rfl
@[simp] theorem State.setLine_sourceTicket (i : LineId) (l : Line) (x : SourceId) : (s.setLine i l).sourceTicket x = s.sourceTicket x := rfl
@[simp] theorem State.setLine_coveredBy (i : LineId) (l : Line) (x : SourceId) : (s.setLine i l).coveredBy x = s.coveredBy x := rfl
@[simp] theorem State.setLine_heldArguments (i : LineId) (l : Line) (x : SourceId) : (s.setLine i l).heldArguments x = s.heldArguments x := rfl
@[simp] theorem State.setLine_findLive (i : LineId) (l : Line) (x : Word) : (s.setLine i l).findLive x = s.findLive x := rfl

/-! ### setCreditLimit -/
@[simp] theorem State.setCreditLimit_sources (k : LaneId) (n : Nat) : (s.setCreditLimit k n).sources = s.sources := rfl
@[simp] theorem State.setCreditLimit_lines (k : LaneId) (n : Nat) : (s.setCreditLimit k n).lines = s.lines := rfl
@[simp] theorem State.setCreditLimit_sampled (k : LaneId) (n : Nat) : (s.setCreditLimit k n).sampled = s.sampled := rfl
@[simp] theorem State.setCreditLimit_lanes (k : LaneId) (n : Nat) : (s.setCreditLimit k n).lanes = s.lanes.set k n := rfl
@[simp] theorem State.setCreditLimit_hosts (k : LaneId) (n : Nat) : (s.setCreditLimit k n).hosts = s.hosts := rfl
@[simp] theorem State.setCreditLimit_atn (k : LaneId) (n : Nat) : (s.setCreditLimit k n).atn = s.atn := rfl
@[simp] theorem State.setCreditLimit_waiting (k : LaneId) (n : Nat) : (s.setCreditLimit k n).waiting = s.waiting := rfl
@[simp] theorem State.setCreditLimit_rotation (k : LaneId) (n : Nat) : (s.setCreditLimit k n).rotation = s.rotation := rfl
@[simp] theorem State.setCreditLimit_slots (k : LaneId) (n : Nat) : (s.setCreditLimit k n).slots = s.slots := rfl
@[simp] theorem State.setCreditLimit_edit (k : LaneId) (n : Nat) : (s.setCreditLimit k n).edit = s.edit := rfl
@[simp] theorem State.setCreditLimit_faults (k : LaneId) (n : Nat) : (s.setCreditLimit k n).faults = s.faults := rfl
@[simp] theorem State.setCreditLimit_ports (k : LaneId) (n : Nat) : (s.setCreditLimit k n).ports = s.ports := rfl
@[simp] theorem State.setCreditLimit_clock (k : LaneId) (n : Nat) : (s.setCreditLimit k n).clock = s.clock := rfl
@[simp] theorem State.setCreditLimit_drawn (k : LaneId) (n : Nat) : (s.setCreditLimit k n).drawn = s.drawn := rfl
@[simp] theorem State.setCreditLimit_pending (k : LaneId) (n : Nat) : (s.setCreditLimit k n).pending = s.pending := rfl
@[simp] theorem State.setCreditLimit_source (k : LaneId) (n : Nat) (x : SourceId) : (s.setCreditLimit k n).source x = s.source x := rfl
@[simp] theorem State.setCreditLimit_line (k : LaneId) (n : Nat) (x : LineId) : (s.setCreditLimit k n).line x = s.line x := rfl
@[simp] theorem State.setCreditLimit_host (k : LaneId) (n : Nat) (x : HostId) : (s.setCreditLimit k n).host x = s.host x := rfl
@[simp] theorem State.setCreditLimit_atnOf (k : LaneId) (n : Nat) (x : HostId) : (s.setCreditLimit k n).atnOf x = s.atnOf x := rfl
@[simp] theorem State.setCreditLimit_waitingClaim (k : LaneId) (n : Nat) (x : HostId) : (s.setCreditLimit k n).waitingClaim x = s.waitingClaim x := rfl
@[simp] theorem State.setCreditLimit_slot (k : LaneId) (n : Nat) (x : SlotId) : (s.setCreditLimit k n).slot x = s.slot x := rfl
@[simp] theorem State.setCreditLimit_port (k : LaneId) (n : Nat) (x : HostId) : (s.setCreditLimit k n).port x = s.port x := rfl
@[simp] theorem State.setCreditLimit_attached (k : LaneId) (n : Nat) (x : HostId) : (s.setCreditLimit k n).attached x = s.attached x := rfl
@[simp] theorem State.setCreditLimit_now (k : LaneId) (n : Nat) : (s.setCreditLimit k n).now = s.now := rfl
@[simp] theorem State.setCreditLimit_liveTickets (k : LaneId) (n : Nat) : (s.setCreditLimit k n).liveTickets = s.liveTickets := rfl
@[simp] theorem State.setCreditLimit_liveTotal (k : LaneId) (n : Nat) : (s.setCreditLimit k n).liveTotal = s.liveTotal := rfl
@[simp] theorem State.setCreditLimit_lowestFree (k : LaneId) (n : Nat) : (s.setCreditLimit k n).lowestFree = s.lowestFree := rfl
@[simp] theorem State.setCreditLimit_liveCount (k : LaneId) (n : Nat) (x : HostId) (z : LaneId) : (s.setCreditLimit k n).liveCount x z = s.liveCount x z := rfl
@[simp] theorem State.setCreditLimit_holds (k : LaneId) (n : Nat) (x : SourceId) (z : HostId) : (s.setCreditLimit k n).holds x z = s.holds x z := rfl
@[simp] theorem State.setCreditLimit_ticketsOf (k : LaneId) (n : Nat) (x : HostId) : (s.setCreditLimit k n).ticketsOf x = s.ticketsOf x := rfl
@[simp] theorem State.setCreditLimit_sourceTicket (k : LaneId) (n : Nat) (x : SourceId) : (s.setCreditLimit k n).sourceTicket x = s.sourceTicket x := rfl
@[simp] theorem State.setCreditLimit_coveredBy (k : LaneId) (n : Nat) (x : SourceId) : (s.setCreditLimit k n).coveredBy x = s.coveredBy x := rfl
@[simp] theorem State.setCreditLimit_heldArguments (k : LaneId) (n : Nat) (x : SourceId) : (s.setCreditLimit k n).heldArguments x = s.heldArguments x := rfl
@[simp] theorem State.setCreditLimit_findLive (k : LaneId) (n : Nat) (x : Word) : (s.setCreditLimit k n).findLive x = s.findLive x := rfl

/-! ### setHost -/
@[simp] theorem State.setHost_sources (h : HostId) (r : HostRec) : (s.setHost h r).sources = s.sources := rfl
@[simp] theorem State.setHost_lines (h : HostId) (r : HostRec) : (s.setHost h r).lines = s.lines := rfl
@[simp] theorem State.setHost_sampled (h : HostId) (r : HostRec) : (s.setHost h r).sampled = s.sampled := rfl
@[simp] theorem State.setHost_lanes (h : HostId) (r : HostRec) : (s.setHost h r).lanes = s.lanes := rfl
@[simp] theorem State.setHost_hosts (h : HostId) (r : HostRec) : (s.setHost h r).hosts = s.hosts.set h r := rfl
@[simp] theorem State.setHost_atn (h : HostId) (r : HostRec) : (s.setHost h r).atn = s.atn := rfl
@[simp] theorem State.setHost_waiting (h : HostId) (r : HostRec) : (s.setHost h r).waiting = s.waiting := rfl
@[simp] theorem State.setHost_rotation (h : HostId) (r : HostRec) : (s.setHost h r).rotation = s.rotation := rfl
@[simp] theorem State.setHost_slots (h : HostId) (r : HostRec) : (s.setHost h r).slots = s.slots := rfl
@[simp] theorem State.setHost_edit (h : HostId) (r : HostRec) : (s.setHost h r).edit = s.edit := rfl
@[simp] theorem State.setHost_faults (h : HostId) (r : HostRec) : (s.setHost h r).faults = s.faults := rfl
@[simp] theorem State.setHost_ports (h : HostId) (r : HostRec) : (s.setHost h r).ports = s.ports := rfl
@[simp] theorem State.setHost_clock (h : HostId) (r : HostRec) : (s.setHost h r).clock = s.clock := rfl
@[simp] theorem State.setHost_drawn (h : HostId) (r : HostRec) : (s.setHost h r).drawn = s.drawn := rfl
@[simp] theorem State.setHost_pending (h : HostId) (r : HostRec) : (s.setHost h r).pending = s.pending := rfl
@[simp] theorem State.setHost_source (h : HostId) (r : HostRec) (x : SourceId) : (s.setHost h r).source x = s.source x := rfl
@[simp] theorem State.setHost_line (h : HostId) (r : HostRec) (x : LineId) : (s.setHost h r).line x = s.line x := rfl
@[simp] theorem State.setHost_creditLimit (h : HostId) (r : HostRec) (x : LaneId) : (s.setHost h r).creditLimit x = s.creditLimit x := rfl
@[simp] theorem State.setHost_atnOf (h : HostId) (r : HostRec) (x : HostId) : (s.setHost h r).atnOf x = s.atnOf x := rfl
@[simp] theorem State.setHost_waitingClaim (h : HostId) (r : HostRec) (x : HostId) : (s.setHost h r).waitingClaim x = s.waitingClaim x := rfl
@[simp] theorem State.setHost_slot (h : HostId) (r : HostRec) (x : SlotId) : (s.setHost h r).slot x = s.slot x := rfl
@[simp] theorem State.setHost_port (h : HostId) (r : HostRec) (x : HostId) : (s.setHost h r).port x = s.port x := rfl
@[simp] theorem State.setHost_now (h : HostId) (r : HostRec) : (s.setHost h r).now = s.now := rfl
@[simp] theorem State.setHost_liveTickets (h : HostId) (r : HostRec) : (s.setHost h r).liveTickets = s.liveTickets := rfl
@[simp] theorem State.setHost_liveTotal (h : HostId) (r : HostRec) : (s.setHost h r).liveTotal = s.liveTotal := rfl
@[simp] theorem State.setHost_lowestFree (h : HostId) (r : HostRec) : (s.setHost h r).lowestFree = s.lowestFree := rfl
@[simp] theorem State.setHost_liveCount (h : HostId) (r : HostRec) (x : HostId) (z : LaneId) : (s.setHost h r).liveCount x z = s.liveCount x z := rfl
@[simp] theorem State.setHost_holds (h : HostId) (r : HostRec) (x : SourceId) (z : HostId) : (s.setHost h r).holds x z = s.holds x z := rfl
@[simp] theorem State.setHost_ticketsOf (h : HostId) (r : HostRec) (x : HostId) : (s.setHost h r).ticketsOf x = s.ticketsOf x := rfl
@[simp] theorem State.setHost_sourceTicket (h : HostId) (r : HostRec) (x : SourceId) : (s.setHost h r).sourceTicket x = s.sourceTicket x := rfl
@[simp] theorem State.setHost_coveredBy (h : HostId) (r : HostRec) (x : SourceId) : (s.setHost h r).coveredBy x = s.coveredBy x := rfl
@[simp] theorem State.setHost_heldArguments (h : HostId) (r : HostRec) (x : SourceId) : (s.setHost h r).heldArguments x = s.heldArguments x := rfl
@[simp] theorem State.setHost_findLive (h : HostId) (r : HostRec) (x : Word) : (s.setHost h r).findLive x = s.findLive x := rfl

/-! ### setAtn -/
@[simp] theorem State.setAtn_sources (v : Vector Bool 4) : (s.setAtn v).sources = s.sources := rfl
@[simp] theorem State.setAtn_lines (v : Vector Bool 4) : (s.setAtn v).lines = s.lines := rfl
@[simp] theorem State.setAtn_sampled (v : Vector Bool 4) : (s.setAtn v).sampled = s.sampled := rfl
@[simp] theorem State.setAtn_lanes (v : Vector Bool 4) : (s.setAtn v).lanes = s.lanes := rfl
@[simp] theorem State.setAtn_hosts (v : Vector Bool 4) : (s.setAtn v).hosts = s.hosts := rfl
@[simp] theorem State.setAtn_atn (v : Vector Bool 4) : (s.setAtn v).atn = v := rfl
@[simp] theorem State.setAtn_waiting (v : Vector Bool 4) : (s.setAtn v).waiting = s.waiting := rfl
@[simp] theorem State.setAtn_rotation (v : Vector Bool 4) : (s.setAtn v).rotation = s.rotation := rfl
@[simp] theorem State.setAtn_slots (v : Vector Bool 4) : (s.setAtn v).slots = s.slots := rfl
@[simp] theorem State.setAtn_edit (v : Vector Bool 4) : (s.setAtn v).edit = s.edit := rfl
@[simp] theorem State.setAtn_faults (v : Vector Bool 4) : (s.setAtn v).faults = s.faults := rfl
@[simp] theorem State.setAtn_ports (v : Vector Bool 4) : (s.setAtn v).ports = s.ports := rfl
@[simp] theorem State.setAtn_clock (v : Vector Bool 4) : (s.setAtn v).clock = s.clock := rfl
@[simp] theorem State.setAtn_drawn (v : Vector Bool 4) : (s.setAtn v).drawn = s.drawn := rfl
@[simp] theorem State.setAtn_pending (v : Vector Bool 4) : (s.setAtn v).pending = s.pending := rfl
@[simp] theorem State.setAtn_source (v : Vector Bool 4) (x : SourceId) : (s.setAtn v).source x = s.source x := rfl
@[simp] theorem State.setAtn_line (v : Vector Bool 4) (x : LineId) : (s.setAtn v).line x = s.line x := rfl
@[simp] theorem State.setAtn_creditLimit (v : Vector Bool 4) (x : LaneId) : (s.setAtn v).creditLimit x = s.creditLimit x := rfl
@[simp] theorem State.setAtn_host (v : Vector Bool 4) (x : HostId) : (s.setAtn v).host x = s.host x := rfl
@[simp] theorem State.setAtn_waitingClaim (v : Vector Bool 4) (x : HostId) : (s.setAtn v).waitingClaim x = s.waitingClaim x := rfl
@[simp] theorem State.setAtn_slot (v : Vector Bool 4) (x : SlotId) : (s.setAtn v).slot x = s.slot x := rfl
@[simp] theorem State.setAtn_port (v : Vector Bool 4) (x : HostId) : (s.setAtn v).port x = s.port x := rfl
@[simp] theorem State.setAtn_attached (v : Vector Bool 4) (x : HostId) : (s.setAtn v).attached x = s.attached x := rfl
@[simp] theorem State.setAtn_now (v : Vector Bool 4) : (s.setAtn v).now = s.now := rfl
@[simp] theorem State.setAtn_liveTickets (v : Vector Bool 4) : (s.setAtn v).liveTickets = s.liveTickets := rfl
@[simp] theorem State.setAtn_liveTotal (v : Vector Bool 4) : (s.setAtn v).liveTotal = s.liveTotal := rfl
@[simp] theorem State.setAtn_lowestFree (v : Vector Bool 4) : (s.setAtn v).lowestFree = s.lowestFree := rfl
@[simp] theorem State.setAtn_liveCount (v : Vector Bool 4) (x : HostId) (z : LaneId) : (s.setAtn v).liveCount x z = s.liveCount x z := rfl
@[simp] theorem State.setAtn_holds (v : Vector Bool 4) (x : SourceId) (z : HostId) : (s.setAtn v).holds x z = s.holds x z := rfl
@[simp] theorem State.setAtn_ticketsOf (v : Vector Bool 4) (x : HostId) : (s.setAtn v).ticketsOf x = s.ticketsOf x := rfl
@[simp] theorem State.setAtn_sourceTicket (v : Vector Bool 4) (x : SourceId) : (s.setAtn v).sourceTicket x = s.sourceTicket x := rfl
@[simp] theorem State.setAtn_coveredBy (v : Vector Bool 4) (x : SourceId) : (s.setAtn v).coveredBy x = s.coveredBy x := rfl
@[simp] theorem State.setAtn_heldArguments (v : Vector Bool 4) (x : SourceId) : (s.setAtn v).heldArguments x = s.heldArguments x := rfl
@[simp] theorem State.setAtn_findLive (v : Vector Bool 4) (x : Word) : (s.setAtn v).findLive x = s.findLive x := rfl

/-! ### setWaiting -/
@[simp] theorem State.setWaiting_sources (h : HostId) (c : Option Byte) : (s.setWaiting h c).sources = s.sources := rfl
@[simp] theorem State.setWaiting_lines (h : HostId) (c : Option Byte) : (s.setWaiting h c).lines = s.lines := rfl
@[simp] theorem State.setWaiting_sampled (h : HostId) (c : Option Byte) : (s.setWaiting h c).sampled = s.sampled := rfl
@[simp] theorem State.setWaiting_lanes (h : HostId) (c : Option Byte) : (s.setWaiting h c).lanes = s.lanes := rfl
@[simp] theorem State.setWaiting_hosts (h : HostId) (c : Option Byte) : (s.setWaiting h c).hosts = s.hosts := rfl
@[simp] theorem State.setWaiting_atn (h : HostId) (c : Option Byte) : (s.setWaiting h c).atn = s.atn := rfl
@[simp] theorem State.setWaiting_waiting (h : HostId) (c : Option Byte) : (s.setWaiting h c).waiting = s.waiting.set h c := rfl
@[simp] theorem State.setWaiting_rotation (h : HostId) (c : Option Byte) : (s.setWaiting h c).rotation = s.rotation := rfl
@[simp] theorem State.setWaiting_slots (h : HostId) (c : Option Byte) : (s.setWaiting h c).slots = s.slots := rfl
@[simp] theorem State.setWaiting_edit (h : HostId) (c : Option Byte) : (s.setWaiting h c).edit = s.edit := rfl
@[simp] theorem State.setWaiting_faults (h : HostId) (c : Option Byte) : (s.setWaiting h c).faults = s.faults := rfl
@[simp] theorem State.setWaiting_ports (h : HostId) (c : Option Byte) : (s.setWaiting h c).ports = s.ports := rfl
@[simp] theorem State.setWaiting_clock (h : HostId) (c : Option Byte) : (s.setWaiting h c).clock = s.clock := rfl
@[simp] theorem State.setWaiting_drawn (h : HostId) (c : Option Byte) : (s.setWaiting h c).drawn = s.drawn := rfl
@[simp] theorem State.setWaiting_pending (h : HostId) (c : Option Byte) : (s.setWaiting h c).pending = s.pending := rfl
@[simp] theorem State.setWaiting_source (h : HostId) (c : Option Byte) (x : SourceId) : (s.setWaiting h c).source x = s.source x := rfl
@[simp] theorem State.setWaiting_line (h : HostId) (c : Option Byte) (x : LineId) : (s.setWaiting h c).line x = s.line x := rfl
@[simp] theorem State.setWaiting_creditLimit (h : HostId) (c : Option Byte) (x : LaneId) : (s.setWaiting h c).creditLimit x = s.creditLimit x := rfl
@[simp] theorem State.setWaiting_host (h : HostId) (c : Option Byte) (x : HostId) : (s.setWaiting h c).host x = s.host x := rfl
@[simp] theorem State.setWaiting_atnOf (h : HostId) (c : Option Byte) (x : HostId) : (s.setWaiting h c).atnOf x = s.atnOf x := rfl
@[simp] theorem State.setWaiting_slot (h : HostId) (c : Option Byte) (x : SlotId) : (s.setWaiting h c).slot x = s.slot x := rfl
@[simp] theorem State.setWaiting_port (h : HostId) (c : Option Byte) (x : HostId) : (s.setWaiting h c).port x = s.port x := rfl
@[simp] theorem State.setWaiting_attached (h : HostId) (c : Option Byte) (x : HostId) : (s.setWaiting h c).attached x = s.attached x := rfl
@[simp] theorem State.setWaiting_now (h : HostId) (c : Option Byte) : (s.setWaiting h c).now = s.now := rfl
@[simp] theorem State.setWaiting_liveTickets (h : HostId) (c : Option Byte) : (s.setWaiting h c).liveTickets = s.liveTickets := rfl
@[simp] theorem State.setWaiting_liveTotal (h : HostId) (c : Option Byte) : (s.setWaiting h c).liveTotal = s.liveTotal := rfl
@[simp] theorem State.setWaiting_lowestFree (h : HostId) (c : Option Byte) : (s.setWaiting h c).lowestFree = s.lowestFree := rfl
@[simp] theorem State.setWaiting_liveCount (h : HostId) (c : Option Byte) (x : HostId) (z : LaneId) : (s.setWaiting h c).liveCount x z = s.liveCount x z := rfl
@[simp] theorem State.setWaiting_holds (h : HostId) (c : Option Byte) (x : SourceId) (z : HostId) : (s.setWaiting h c).holds x z = s.holds x z := rfl
@[simp] theorem State.setWaiting_ticketsOf (h : HostId) (c : Option Byte) (x : HostId) : (s.setWaiting h c).ticketsOf x = s.ticketsOf x := rfl
@[simp] theorem State.setWaiting_sourceTicket (h : HostId) (c : Option Byte) (x : SourceId) : (s.setWaiting h c).sourceTicket x = s.sourceTicket x := rfl
@[simp] theorem State.setWaiting_coveredBy (h : HostId) (c : Option Byte) (x : SourceId) : (s.setWaiting h c).coveredBy x = s.coveredBy x := rfl
@[simp] theorem State.setWaiting_heldArguments (h : HostId) (c : Option Byte) (x : SourceId) : (s.setWaiting h c).heldArguments x = s.heldArguments x := rfl
@[simp] theorem State.setWaiting_findLive (h : HostId) (c : Option Byte) (x : Word) : (s.setWaiting h c).findLive x = s.findLive x := rfl

/-! ### setRotation -/
@[simp] theorem State.setRotation_sources (h : HostId) : (s.setRotation h).sources = s.sources := rfl
@[simp] theorem State.setRotation_lines (h : HostId) : (s.setRotation h).lines = s.lines := rfl
@[simp] theorem State.setRotation_sampled (h : HostId) : (s.setRotation h).sampled = s.sampled := rfl
@[simp] theorem State.setRotation_lanes (h : HostId) : (s.setRotation h).lanes = s.lanes := rfl
@[simp] theorem State.setRotation_hosts (h : HostId) : (s.setRotation h).hosts = s.hosts := rfl
@[simp] theorem State.setRotation_atn (h : HostId) : (s.setRotation h).atn = s.atn := rfl
@[simp] theorem State.setRotation_waiting (h : HostId) : (s.setRotation h).waiting = s.waiting := rfl
@[simp] theorem State.setRotation_rotation (h : HostId) : (s.setRotation h).rotation = h := rfl
@[simp] theorem State.setRotation_slots (h : HostId) : (s.setRotation h).slots = s.slots := rfl
@[simp] theorem State.setRotation_edit (h : HostId) : (s.setRotation h).edit = s.edit := rfl
@[simp] theorem State.setRotation_faults (h : HostId) : (s.setRotation h).faults = s.faults := rfl
@[simp] theorem State.setRotation_ports (h : HostId) : (s.setRotation h).ports = s.ports := rfl
@[simp] theorem State.setRotation_clock (h : HostId) : (s.setRotation h).clock = s.clock := rfl
@[simp] theorem State.setRotation_drawn (h : HostId) : (s.setRotation h).drawn = s.drawn := rfl
@[simp] theorem State.setRotation_pending (h : HostId) : (s.setRotation h).pending = s.pending := rfl
@[simp] theorem State.setRotation_source (h : HostId) (x : SourceId) : (s.setRotation h).source x = s.source x := rfl
@[simp] theorem State.setRotation_line (h : HostId) (x : LineId) : (s.setRotation h).line x = s.line x := rfl
@[simp] theorem State.setRotation_creditLimit (h : HostId) (x : LaneId) : (s.setRotation h).creditLimit x = s.creditLimit x := rfl
@[simp] theorem State.setRotation_host (h : HostId) (x : HostId) : (s.setRotation h).host x = s.host x := rfl
@[simp] theorem State.setRotation_atnOf (h : HostId) (x : HostId) : (s.setRotation h).atnOf x = s.atnOf x := rfl
@[simp] theorem State.setRotation_waitingClaim (h : HostId) (x : HostId) : (s.setRotation h).waitingClaim x = s.waitingClaim x := rfl
@[simp] theorem State.setRotation_slot (h : HostId) (x : SlotId) : (s.setRotation h).slot x = s.slot x := rfl
@[simp] theorem State.setRotation_port (h : HostId) (x : HostId) : (s.setRotation h).port x = s.port x := rfl
@[simp] theorem State.setRotation_attached (h : HostId) (x : HostId) : (s.setRotation h).attached x = s.attached x := rfl
@[simp] theorem State.setRotation_now (h : HostId) : (s.setRotation h).now = s.now := rfl
@[simp] theorem State.setRotation_liveTickets (h : HostId) : (s.setRotation h).liveTickets = s.liveTickets := rfl
@[simp] theorem State.setRotation_liveTotal (h : HostId) : (s.setRotation h).liveTotal = s.liveTotal := rfl
@[simp] theorem State.setRotation_lowestFree (h : HostId) : (s.setRotation h).lowestFree = s.lowestFree := rfl
@[simp] theorem State.setRotation_liveCount (h : HostId) (x : HostId) (z : LaneId) : (s.setRotation h).liveCount x z = s.liveCount x z := rfl
@[simp] theorem State.setRotation_holds (h : HostId) (x : SourceId) (z : HostId) : (s.setRotation h).holds x z = s.holds x z := rfl
@[simp] theorem State.setRotation_ticketsOf (h : HostId) (x : HostId) : (s.setRotation h).ticketsOf x = s.ticketsOf x := rfl
@[simp] theorem State.setRotation_sourceTicket (h : HostId) (x : SourceId) : (s.setRotation h).sourceTicket x = s.sourceTicket x := rfl
@[simp] theorem State.setRotation_coveredBy (h : HostId) (x : SourceId) : (s.setRotation h).coveredBy x = s.coveredBy x := rfl
@[simp] theorem State.setRotation_heldArguments (h : HostId) (x : SourceId) : (s.setRotation h).heldArguments x = s.heldArguments x := rfl
@[simp] theorem State.setRotation_findLive (h : HostId) (x : Word) : (s.setRotation h).findLive x = s.findLive x := rfl

/-! ### setSlot -/
@[simp] theorem State.setSlot_sources (k : SlotId) (y : Slot) : (s.setSlot k y).sources = s.sources := rfl
@[simp] theorem State.setSlot_lines (k : SlotId) (y : Slot) : (s.setSlot k y).lines = s.lines := rfl
@[simp] theorem State.setSlot_sampled (k : SlotId) (y : Slot) : (s.setSlot k y).sampled = s.sampled := rfl
@[simp] theorem State.setSlot_lanes (k : SlotId) (y : Slot) : (s.setSlot k y).lanes = s.lanes := rfl
@[simp] theorem State.setSlot_hosts (k : SlotId) (y : Slot) : (s.setSlot k y).hosts = s.hosts := rfl
@[simp] theorem State.setSlot_atn (k : SlotId) (y : Slot) : (s.setSlot k y).atn = s.atn := rfl
@[simp] theorem State.setSlot_waiting (k : SlotId) (y : Slot) : (s.setSlot k y).waiting = s.waiting := rfl
@[simp] theorem State.setSlot_rotation (k : SlotId) (y : Slot) : (s.setSlot k y).rotation = s.rotation := rfl
@[simp] theorem State.setSlot_slots (k : SlotId) (y : Slot) : (s.setSlot k y).slots = s.slots.set k y := rfl
@[simp] theorem State.setSlot_edit (k : SlotId) (y : Slot) : (s.setSlot k y).edit = s.edit := rfl
@[simp] theorem State.setSlot_faults (k : SlotId) (y : Slot) : (s.setSlot k y).faults = s.faults := rfl
@[simp] theorem State.setSlot_ports (k : SlotId) (y : Slot) : (s.setSlot k y).ports = s.ports := rfl
@[simp] theorem State.setSlot_clock (k : SlotId) (y : Slot) : (s.setSlot k y).clock = s.clock := rfl
@[simp] theorem State.setSlot_drawn (k : SlotId) (y : Slot) : (s.setSlot k y).drawn = s.drawn := rfl
@[simp] theorem State.setSlot_pending (k : SlotId) (y : Slot) : (s.setSlot k y).pending = s.pending := rfl
@[simp] theorem State.setSlot_source (k : SlotId) (y : Slot) (x : SourceId) : (s.setSlot k y).source x = s.source x := rfl
@[simp] theorem State.setSlot_line (k : SlotId) (y : Slot) (x : LineId) : (s.setSlot k y).line x = s.line x := rfl
@[simp] theorem State.setSlot_creditLimit (k : SlotId) (y : Slot) (x : LaneId) : (s.setSlot k y).creditLimit x = s.creditLimit x := rfl
@[simp] theorem State.setSlot_host (k : SlotId) (y : Slot) (x : HostId) : (s.setSlot k y).host x = s.host x := rfl
@[simp] theorem State.setSlot_atnOf (k : SlotId) (y : Slot) (x : HostId) : (s.setSlot k y).atnOf x = s.atnOf x := rfl
@[simp] theorem State.setSlot_waitingClaim (k : SlotId) (y : Slot) (x : HostId) : (s.setSlot k y).waitingClaim x = s.waitingClaim x := rfl
@[simp] theorem State.setSlot_port (k : SlotId) (y : Slot) (x : HostId) : (s.setSlot k y).port x = s.port x := rfl
@[simp] theorem State.setSlot_attached (k : SlotId) (y : Slot) (x : HostId) : (s.setSlot k y).attached x = s.attached x := rfl
@[simp] theorem State.setSlot_now (k : SlotId) (y : Slot) : (s.setSlot k y).now = s.now := rfl

/-! ### setEdit -/
@[simp] theorem State.setEdit_sources (e : EditUnit) : (s.setEdit e).sources = s.sources := rfl
@[simp] theorem State.setEdit_lines (e : EditUnit) : (s.setEdit e).lines = s.lines := rfl
@[simp] theorem State.setEdit_sampled (e : EditUnit) : (s.setEdit e).sampled = s.sampled := rfl
@[simp] theorem State.setEdit_lanes (e : EditUnit) : (s.setEdit e).lanes = s.lanes := rfl
@[simp] theorem State.setEdit_hosts (e : EditUnit) : (s.setEdit e).hosts = s.hosts := rfl
@[simp] theorem State.setEdit_atn (e : EditUnit) : (s.setEdit e).atn = s.atn := rfl
@[simp] theorem State.setEdit_waiting (e : EditUnit) : (s.setEdit e).waiting = s.waiting := rfl
@[simp] theorem State.setEdit_rotation (e : EditUnit) : (s.setEdit e).rotation = s.rotation := rfl
@[simp] theorem State.setEdit_slots (e : EditUnit) : (s.setEdit e).slots = s.slots := rfl
@[simp] theorem State.setEdit_edit (e : EditUnit) : (s.setEdit e).edit = e := rfl
@[simp] theorem State.setEdit_faults (e : EditUnit) : (s.setEdit e).faults = s.faults := rfl
@[simp] theorem State.setEdit_ports (e : EditUnit) : (s.setEdit e).ports = s.ports := rfl
@[simp] theorem State.setEdit_clock (e : EditUnit) : (s.setEdit e).clock = s.clock := rfl
@[simp] theorem State.setEdit_drawn (e : EditUnit) : (s.setEdit e).drawn = s.drawn := rfl
@[simp] theorem State.setEdit_pending (e : EditUnit) : (s.setEdit e).pending = s.pending := rfl
@[simp] theorem State.setEdit_source (e : EditUnit) (x : SourceId) : (s.setEdit e).source x = s.source x := rfl
@[simp] theorem State.setEdit_line (e : EditUnit) (x : LineId) : (s.setEdit e).line x = s.line x := rfl
@[simp] theorem State.setEdit_creditLimit (e : EditUnit) (x : LaneId) : (s.setEdit e).creditLimit x = s.creditLimit x := rfl
@[simp] theorem State.setEdit_host (e : EditUnit) (x : HostId) : (s.setEdit e).host x = s.host x := rfl
@[simp] theorem State.setEdit_atnOf (e : EditUnit) (x : HostId) : (s.setEdit e).atnOf x = s.atnOf x := rfl
@[simp] theorem State.setEdit_waitingClaim (e : EditUnit) (x : HostId) : (s.setEdit e).waitingClaim x = s.waitingClaim x := rfl
@[simp] theorem State.setEdit_slot (e : EditUnit) (x : SlotId) : (s.setEdit e).slot x = s.slot x := rfl
@[simp] theorem State.setEdit_port (e : EditUnit) (x : HostId) : (s.setEdit e).port x = s.port x := rfl
@[simp] theorem State.setEdit_attached (e : EditUnit) (x : HostId) : (s.setEdit e).attached x = s.attached x := rfl
@[simp] theorem State.setEdit_now (e : EditUnit) : (s.setEdit e).now = s.now := rfl
@[simp] theorem State.setEdit_liveTickets (e : EditUnit) : (s.setEdit e).liveTickets = s.liveTickets := rfl
@[simp] theorem State.setEdit_liveTotal (e : EditUnit) : (s.setEdit e).liveTotal = s.liveTotal := rfl
@[simp] theorem State.setEdit_lowestFree (e : EditUnit) : (s.setEdit e).lowestFree = s.lowestFree := rfl
@[simp] theorem State.setEdit_liveCount (e : EditUnit) (x : HostId) (z : LaneId) : (s.setEdit e).liveCount x z = s.liveCount x z := rfl
@[simp] theorem State.setEdit_holds (e : EditUnit) (x : SourceId) (z : HostId) : (s.setEdit e).holds x z = s.holds x z := rfl
@[simp] theorem State.setEdit_ticketsOf (e : EditUnit) (x : HostId) : (s.setEdit e).ticketsOf x = s.ticketsOf x := rfl
@[simp] theorem State.setEdit_sourceTicket (e : EditUnit) (x : SourceId) : (s.setEdit e).sourceTicket x = s.sourceTicket x := rfl
@[simp] theorem State.setEdit_coveredBy (e : EditUnit) (x : SourceId) : (s.setEdit e).coveredBy x = s.coveredBy x := rfl
@[simp] theorem State.setEdit_heldArguments (e : EditUnit) (x : SourceId) : (s.setEdit e).heldArguments x = s.heldArguments x := rfl
@[simp] theorem State.setEdit_findLive (e : EditUnit) (x : Word) : (s.setEdit e).findLive x = s.findLive x := rfl

/-! ### setFaults -/
@[simp] theorem State.setFaults_sources (q : FaultQueue) : (s.setFaults q).sources = s.sources := rfl
@[simp] theorem State.setFaults_lines (q : FaultQueue) : (s.setFaults q).lines = s.lines := rfl
@[simp] theorem State.setFaults_sampled (q : FaultQueue) : (s.setFaults q).sampled = s.sampled := rfl
@[simp] theorem State.setFaults_lanes (q : FaultQueue) : (s.setFaults q).lanes = s.lanes := rfl
@[simp] theorem State.setFaults_hosts (q : FaultQueue) : (s.setFaults q).hosts = s.hosts := rfl
@[simp] theorem State.setFaults_atn (q : FaultQueue) : (s.setFaults q).atn = s.atn := rfl
@[simp] theorem State.setFaults_waiting (q : FaultQueue) : (s.setFaults q).waiting = s.waiting := rfl
@[simp] theorem State.setFaults_rotation (q : FaultQueue) : (s.setFaults q).rotation = s.rotation := rfl
@[simp] theorem State.setFaults_slots (q : FaultQueue) : (s.setFaults q).slots = s.slots := rfl
@[simp] theorem State.setFaults_edit (q : FaultQueue) : (s.setFaults q).edit = s.edit := rfl
@[simp] theorem State.setFaults_faults (q : FaultQueue) : (s.setFaults q).faults = q := rfl
@[simp] theorem State.setFaults_ports (q : FaultQueue) : (s.setFaults q).ports = s.ports := rfl
@[simp] theorem State.setFaults_clock (q : FaultQueue) : (s.setFaults q).clock = s.clock := rfl
@[simp] theorem State.setFaults_drawn (q : FaultQueue) : (s.setFaults q).drawn = s.drawn := rfl
@[simp] theorem State.setFaults_pending (q : FaultQueue) : (s.setFaults q).pending = s.pending := rfl
@[simp] theorem State.setFaults_source (q : FaultQueue) (x : SourceId) : (s.setFaults q).source x = s.source x := rfl
@[simp] theorem State.setFaults_line (q : FaultQueue) (x : LineId) : (s.setFaults q).line x = s.line x := rfl
@[simp] theorem State.setFaults_creditLimit (q : FaultQueue) (x : LaneId) : (s.setFaults q).creditLimit x = s.creditLimit x := rfl
@[simp] theorem State.setFaults_host (q : FaultQueue) (x : HostId) : (s.setFaults q).host x = s.host x := rfl
@[simp] theorem State.setFaults_atnOf (q : FaultQueue) (x : HostId) : (s.setFaults q).atnOf x = s.atnOf x := rfl
@[simp] theorem State.setFaults_waitingClaim (q : FaultQueue) (x : HostId) : (s.setFaults q).waitingClaim x = s.waitingClaim x := rfl
@[simp] theorem State.setFaults_slot (q : FaultQueue) (x : SlotId) : (s.setFaults q).slot x = s.slot x := rfl
@[simp] theorem State.setFaults_port (q : FaultQueue) (x : HostId) : (s.setFaults q).port x = s.port x := rfl
@[simp] theorem State.setFaults_attached (q : FaultQueue) (x : HostId) : (s.setFaults q).attached x = s.attached x := rfl
@[simp] theorem State.setFaults_now (q : FaultQueue) : (s.setFaults q).now = s.now := rfl
@[simp] theorem State.setFaults_liveTickets (q : FaultQueue) : (s.setFaults q).liveTickets = s.liveTickets := rfl
@[simp] theorem State.setFaults_liveTotal (q : FaultQueue) : (s.setFaults q).liveTotal = s.liveTotal := rfl
@[simp] theorem State.setFaults_lowestFree (q : FaultQueue) : (s.setFaults q).lowestFree = s.lowestFree := rfl
@[simp] theorem State.setFaults_liveCount (q : FaultQueue) (x : HostId) (z : LaneId) : (s.setFaults q).liveCount x z = s.liveCount x z := rfl
@[simp] theorem State.setFaults_holds (q : FaultQueue) (x : SourceId) (z : HostId) : (s.setFaults q).holds x z = s.holds x z := rfl
@[simp] theorem State.setFaults_ticketsOf (q : FaultQueue) (x : HostId) : (s.setFaults q).ticketsOf x = s.ticketsOf x := rfl
@[simp] theorem State.setFaults_sourceTicket (q : FaultQueue) (x : SourceId) : (s.setFaults q).sourceTicket x = s.sourceTicket x := rfl
@[simp] theorem State.setFaults_coveredBy (q : FaultQueue) (x : SourceId) : (s.setFaults q).coveredBy x = s.coveredBy x := rfl
@[simp] theorem State.setFaults_heldArguments (q : FaultQueue) (x : SourceId) : (s.setFaults q).heldArguments x = s.heldArguments x := rfl
@[simp] theorem State.setFaults_findLive (q : FaultQueue) (x : Word) : (s.setFaults q).findLive x = s.findLive x := rfl

/-! ### setPort -/
@[simp] theorem State.setPort_sources (h : HostId) (p : Port) : (s.setPort h p).sources = s.sources := rfl
@[simp] theorem State.setPort_lines (h : HostId) (p : Port) : (s.setPort h p).lines = s.lines := rfl
@[simp] theorem State.setPort_sampled (h : HostId) (p : Port) : (s.setPort h p).sampled = s.sampled := rfl
@[simp] theorem State.setPort_lanes (h : HostId) (p : Port) : (s.setPort h p).lanes = s.lanes := rfl
@[simp] theorem State.setPort_hosts (h : HostId) (p : Port) : (s.setPort h p).hosts = s.hosts := rfl
@[simp] theorem State.setPort_atn (h : HostId) (p : Port) : (s.setPort h p).atn = s.atn := rfl
@[simp] theorem State.setPort_waiting (h : HostId) (p : Port) : (s.setPort h p).waiting = s.waiting := rfl
@[simp] theorem State.setPort_rotation (h : HostId) (p : Port) : (s.setPort h p).rotation = s.rotation := rfl
@[simp] theorem State.setPort_slots (h : HostId) (p : Port) : (s.setPort h p).slots = s.slots := rfl
@[simp] theorem State.setPort_edit (h : HostId) (p : Port) : (s.setPort h p).edit = s.edit := rfl
@[simp] theorem State.setPort_faults (h : HostId) (p : Port) : (s.setPort h p).faults = s.faults := rfl
@[simp] theorem State.setPort_ports (h : HostId) (p : Port) : (s.setPort h p).ports = s.ports.set h p := rfl
@[simp] theorem State.setPort_clock (h : HostId) (p : Port) : (s.setPort h p).clock = s.clock := rfl
@[simp] theorem State.setPort_drawn (h : HostId) (p : Port) : (s.setPort h p).drawn = s.drawn := rfl
@[simp] theorem State.setPort_pending (h : HostId) (p : Port) : (s.setPort h p).pending = s.pending := rfl
@[simp] theorem State.setPort_source (h : HostId) (p : Port) (x : SourceId) : (s.setPort h p).source x = s.source x := rfl
@[simp] theorem State.setPort_line (h : HostId) (p : Port) (x : LineId) : (s.setPort h p).line x = s.line x := rfl
@[simp] theorem State.setPort_creditLimit (h : HostId) (p : Port) (x : LaneId) : (s.setPort h p).creditLimit x = s.creditLimit x := rfl
@[simp] theorem State.setPort_host (h : HostId) (p : Port) (x : HostId) : (s.setPort h p).host x = s.host x := rfl
@[simp] theorem State.setPort_atnOf (h : HostId) (p : Port) (x : HostId) : (s.setPort h p).atnOf x = s.atnOf x := rfl
@[simp] theorem State.setPort_waitingClaim (h : HostId) (p : Port) (x : HostId) : (s.setPort h p).waitingClaim x = s.waitingClaim x := rfl
@[simp] theorem State.setPort_slot (h : HostId) (p : Port) (x : SlotId) : (s.setPort h p).slot x = s.slot x := rfl
@[simp] theorem State.setPort_attached (h : HostId) (p : Port) (x : HostId) : (s.setPort h p).attached x = s.attached x := rfl
@[simp] theorem State.setPort_now (h : HostId) (p : Port) : (s.setPort h p).now = s.now := rfl
@[simp] theorem State.setPort_liveTickets (h : HostId) (p : Port) : (s.setPort h p).liveTickets = s.liveTickets := rfl
@[simp] theorem State.setPort_liveTotal (h : HostId) (p : Port) : (s.setPort h p).liveTotal = s.liveTotal := rfl
@[simp] theorem State.setPort_lowestFree (h : HostId) (p : Port) : (s.setPort h p).lowestFree = s.lowestFree := rfl
@[simp] theorem State.setPort_liveCount (h : HostId) (p : Port) (x : HostId) (z : LaneId) : (s.setPort h p).liveCount x z = s.liveCount x z := rfl
@[simp] theorem State.setPort_holds (h : HostId) (p : Port) (x : SourceId) (z : HostId) : (s.setPort h p).holds x z = s.holds x z := rfl
@[simp] theorem State.setPort_ticketsOf (h : HostId) (p : Port) (x : HostId) : (s.setPort h p).ticketsOf x = s.ticketsOf x := rfl
@[simp] theorem State.setPort_sourceTicket (h : HostId) (p : Port) (x : SourceId) : (s.setPort h p).sourceTicket x = s.sourceTicket x := rfl
@[simp] theorem State.setPort_coveredBy (h : HostId) (p : Port) (x : SourceId) : (s.setPort h p).coveredBy x = s.coveredBy x := rfl
@[simp] theorem State.setPort_heldArguments (h : HostId) (p : Port) (x : SourceId) : (s.setPort h p).heldArguments x = s.heldArguments x := rfl
@[simp] theorem State.setPort_findLive (h : HostId) (p : Port) (x : Word) : (s.setPort h p).findLive x = s.findLive x := rfl

/-! ### setClock -/
@[simp] theorem State.setClock_sources (c : Clock) : (s.setClock c).sources = s.sources := rfl
@[simp] theorem State.setClock_lines (c : Clock) : (s.setClock c).lines = s.lines := rfl
@[simp] theorem State.setClock_sampled (c : Clock) : (s.setClock c).sampled = s.sampled := rfl
@[simp] theorem State.setClock_lanes (c : Clock) : (s.setClock c).lanes = s.lanes := rfl
@[simp] theorem State.setClock_hosts (c : Clock) : (s.setClock c).hosts = s.hosts := rfl
@[simp] theorem State.setClock_atn (c : Clock) : (s.setClock c).atn = s.atn := rfl
@[simp] theorem State.setClock_waiting (c : Clock) : (s.setClock c).waiting = s.waiting := rfl
@[simp] theorem State.setClock_rotation (c : Clock) : (s.setClock c).rotation = s.rotation := rfl
@[simp] theorem State.setClock_slots (c : Clock) : (s.setClock c).slots = s.slots := rfl
@[simp] theorem State.setClock_edit (c : Clock) : (s.setClock c).edit = s.edit := rfl
@[simp] theorem State.setClock_faults (c : Clock) : (s.setClock c).faults = s.faults := rfl
@[simp] theorem State.setClock_ports (c : Clock) : (s.setClock c).ports = s.ports := rfl
@[simp] theorem State.setClock_clock (c : Clock) : (s.setClock c).clock = c := rfl
@[simp] theorem State.setClock_drawn (c : Clock) : (s.setClock c).drawn = s.drawn := rfl
@[simp] theorem State.setClock_pending (c : Clock) : (s.setClock c).pending = s.pending := rfl
@[simp] theorem State.setClock_source (c : Clock) (x : SourceId) : (s.setClock c).source x = s.source x := rfl
@[simp] theorem State.setClock_line (c : Clock) (x : LineId) : (s.setClock c).line x = s.line x := rfl
@[simp] theorem State.setClock_creditLimit (c : Clock) (x : LaneId) : (s.setClock c).creditLimit x = s.creditLimit x := rfl
@[simp] theorem State.setClock_host (c : Clock) (x : HostId) : (s.setClock c).host x = s.host x := rfl
@[simp] theorem State.setClock_atnOf (c : Clock) (x : HostId) : (s.setClock c).atnOf x = s.atnOf x := rfl
@[simp] theorem State.setClock_waitingClaim (c : Clock) (x : HostId) : (s.setClock c).waitingClaim x = s.waitingClaim x := rfl
@[simp] theorem State.setClock_slot (c : Clock) (x : SlotId) : (s.setClock c).slot x = s.slot x := rfl
@[simp] theorem State.setClock_port (c : Clock) (x : HostId) : (s.setClock c).port x = s.port x := rfl
@[simp] theorem State.setClock_attached (c : Clock) (x : HostId) : (s.setClock c).attached x = s.attached x := rfl
@[simp] theorem State.setClock_liveTickets (c : Clock) : (s.setClock c).liveTickets = s.liveTickets := rfl
@[simp] theorem State.setClock_liveTotal (c : Clock) : (s.setClock c).liveTotal = s.liveTotal := rfl
@[simp] theorem State.setClock_lowestFree (c : Clock) : (s.setClock c).lowestFree = s.lowestFree := rfl
@[simp] theorem State.setClock_liveCount (c : Clock) (x : HostId) (z : LaneId) : (s.setClock c).liveCount x z = s.liveCount x z := rfl
@[simp] theorem State.setClock_holds (c : Clock) (x : SourceId) (z : HostId) : (s.setClock c).holds x z = s.holds x z := rfl
@[simp] theorem State.setClock_ticketsOf (c : Clock) (x : HostId) : (s.setClock c).ticketsOf x = s.ticketsOf x := rfl
@[simp] theorem State.setClock_sourceTicket (c : Clock) (x : SourceId) : (s.setClock c).sourceTicket x = s.sourceTicket x := rfl
@[simp] theorem State.setClock_coveredBy (c : Clock) (x : SourceId) : (s.setClock c).coveredBy x = s.coveredBy x := rfl
@[simp] theorem State.setClock_heldArguments (c : Clock) (x : SourceId) : (s.setClock c).heldArguments x = s.heldArguments x := rfl
@[simp] theorem State.setClock_findLive (c : Clock) (x : Word) : (s.setClock c).findLive x = s.findLive x := rfl

/-! ### setSampled -/
@[simp] theorem State.setSampled_sources (b : Bool) : (s.setSampled b).sources = s.sources := rfl
@[simp] theorem State.setSampled_lines (b : Bool) : (s.setSampled b).lines = s.lines := rfl
@[simp] theorem State.setSampled_sampled (b : Bool) : (s.setSampled b).sampled = b := rfl
@[simp] theorem State.setSampled_lanes (b : Bool) : (s.setSampled b).lanes = s.lanes := rfl
@[simp] theorem State.setSampled_hosts (b : Bool) : (s.setSampled b).hosts = s.hosts := rfl
@[simp] theorem State.setSampled_atn (b : Bool) : (s.setSampled b).atn = s.atn := rfl
@[simp] theorem State.setSampled_waiting (b : Bool) : (s.setSampled b).waiting = s.waiting := rfl
@[simp] theorem State.setSampled_rotation (b : Bool) : (s.setSampled b).rotation = s.rotation := rfl
@[simp] theorem State.setSampled_slots (b : Bool) : (s.setSampled b).slots = s.slots := rfl
@[simp] theorem State.setSampled_edit (b : Bool) : (s.setSampled b).edit = s.edit := rfl
@[simp] theorem State.setSampled_faults (b : Bool) : (s.setSampled b).faults = s.faults := rfl
@[simp] theorem State.setSampled_ports (b : Bool) : (s.setSampled b).ports = s.ports := rfl
@[simp] theorem State.setSampled_clock (b : Bool) : (s.setSampled b).clock = s.clock := rfl
@[simp] theorem State.setSampled_drawn (b : Bool) : (s.setSampled b).drawn = s.drawn := rfl
@[simp] theorem State.setSampled_pending (b : Bool) : (s.setSampled b).pending = s.pending := rfl
@[simp] theorem State.setSampled_source (b : Bool) (x : SourceId) : (s.setSampled b).source x = s.source x := rfl
@[simp] theorem State.setSampled_line (b : Bool) (x : LineId) : (s.setSampled b).line x = s.line x := rfl
@[simp] theorem State.setSampled_creditLimit (b : Bool) (x : LaneId) : (s.setSampled b).creditLimit x = s.creditLimit x := rfl
@[simp] theorem State.setSampled_host (b : Bool) (x : HostId) : (s.setSampled b).host x = s.host x := rfl
@[simp] theorem State.setSampled_atnOf (b : Bool) (x : HostId) : (s.setSampled b).atnOf x = s.atnOf x := rfl
@[simp] theorem State.setSampled_waitingClaim (b : Bool) (x : HostId) : (s.setSampled b).waitingClaim x = s.waitingClaim x := rfl
@[simp] theorem State.setSampled_slot (b : Bool) (x : SlotId) : (s.setSampled b).slot x = s.slot x := rfl
@[simp] theorem State.setSampled_port (b : Bool) (x : HostId) : (s.setSampled b).port x = s.port x := rfl
@[simp] theorem State.setSampled_attached (b : Bool) (x : HostId) : (s.setSampled b).attached x = s.attached x := rfl
@[simp] theorem State.setSampled_now (b : Bool) : (s.setSampled b).now = s.now := rfl
@[simp] theorem State.setSampled_liveTickets (b : Bool) : (s.setSampled b).liveTickets = s.liveTickets := rfl
@[simp] theorem State.setSampled_liveTotal (b : Bool) : (s.setSampled b).liveTotal = s.liveTotal := rfl
@[simp] theorem State.setSampled_lowestFree (b : Bool) : (s.setSampled b).lowestFree = s.lowestFree := rfl
@[simp] theorem State.setSampled_liveCount (b : Bool) (x : HostId) (z : LaneId) : (s.setSampled b).liveCount x z = s.liveCount x z := rfl
@[simp] theorem State.setSampled_holds (b : Bool) (x : SourceId) (z : HostId) : (s.setSampled b).holds x z = s.holds x z := rfl
@[simp] theorem State.setSampled_ticketsOf (b : Bool) (x : HostId) : (s.setSampled b).ticketsOf x = s.ticketsOf x := rfl
@[simp] theorem State.setSampled_sourceTicket (b : Bool) (x : SourceId) : (s.setSampled b).sourceTicket x = s.sourceTicket x := rfl
@[simp] theorem State.setSampled_coveredBy (b : Bool) (x : SourceId) : (s.setSampled b).coveredBy x = s.coveredBy x := rfl
@[simp] theorem State.setSampled_heldArguments (b : Bool) (x : SourceId) : (s.setSampled b).heldArguments x = s.heldArguments x := rfl
@[simp] theorem State.setSampled_findLive (b : Bool) (x : Word) : (s.setSampled b).findLive x = s.findLive x := rfl

/-! ### setDrawn -/
@[simp] theorem State.setDrawn_sources (n : Nat) : (s.setDrawn n).sources = s.sources := rfl
@[simp] theorem State.setDrawn_lines (n : Nat) : (s.setDrawn n).lines = s.lines := rfl
@[simp] theorem State.setDrawn_sampled (n : Nat) : (s.setDrawn n).sampled = s.sampled := rfl
@[simp] theorem State.setDrawn_lanes (n : Nat) : (s.setDrawn n).lanes = s.lanes := rfl
@[simp] theorem State.setDrawn_hosts (n : Nat) : (s.setDrawn n).hosts = s.hosts := rfl
@[simp] theorem State.setDrawn_atn (n : Nat) : (s.setDrawn n).atn = s.atn := rfl
@[simp] theorem State.setDrawn_waiting (n : Nat) : (s.setDrawn n).waiting = s.waiting := rfl
@[simp] theorem State.setDrawn_rotation (n : Nat) : (s.setDrawn n).rotation = s.rotation := rfl
@[simp] theorem State.setDrawn_slots (n : Nat) : (s.setDrawn n).slots = s.slots := rfl
@[simp] theorem State.setDrawn_edit (n : Nat) : (s.setDrawn n).edit = s.edit := rfl
@[simp] theorem State.setDrawn_faults (n : Nat) : (s.setDrawn n).faults = s.faults := rfl
@[simp] theorem State.setDrawn_ports (n : Nat) : (s.setDrawn n).ports = s.ports := rfl
@[simp] theorem State.setDrawn_clock (n : Nat) : (s.setDrawn n).clock = s.clock := rfl
@[simp] theorem State.setDrawn_drawn (n : Nat) : (s.setDrawn n).drawn = n := rfl
@[simp] theorem State.setDrawn_pending (n : Nat) : (s.setDrawn n).pending = s.pending := rfl
@[simp] theorem State.setDrawn_source (n : Nat) (x : SourceId) : (s.setDrawn n).source x = s.source x := rfl
@[simp] theorem State.setDrawn_line (n : Nat) (x : LineId) : (s.setDrawn n).line x = s.line x := rfl
@[simp] theorem State.setDrawn_creditLimit (n : Nat) (x : LaneId) : (s.setDrawn n).creditLimit x = s.creditLimit x := rfl
@[simp] theorem State.setDrawn_host (n : Nat) (x : HostId) : (s.setDrawn n).host x = s.host x := rfl
@[simp] theorem State.setDrawn_atnOf (n : Nat) (x : HostId) : (s.setDrawn n).atnOf x = s.atnOf x := rfl
@[simp] theorem State.setDrawn_waitingClaim (n : Nat) (x : HostId) : (s.setDrawn n).waitingClaim x = s.waitingClaim x := rfl
@[simp] theorem State.setDrawn_slot (n : Nat) (x : SlotId) : (s.setDrawn n).slot x = s.slot x := rfl
@[simp] theorem State.setDrawn_port (n : Nat) (x : HostId) : (s.setDrawn n).port x = s.port x := rfl
@[simp] theorem State.setDrawn_attached (n : Nat) (x : HostId) : (s.setDrawn n).attached x = s.attached x := rfl
@[simp] theorem State.setDrawn_now (n : Nat) : (s.setDrawn n).now = s.now := rfl
@[simp] theorem State.setDrawn_liveTickets (n : Nat) : (s.setDrawn n).liveTickets = s.liveTickets := rfl
@[simp] theorem State.setDrawn_liveTotal (n : Nat) : (s.setDrawn n).liveTotal = s.liveTotal := rfl
@[simp] theorem State.setDrawn_lowestFree (n : Nat) : (s.setDrawn n).lowestFree = s.lowestFree := rfl
@[simp] theorem State.setDrawn_liveCount (n : Nat) (x : HostId) (z : LaneId) : (s.setDrawn n).liveCount x z = s.liveCount x z := rfl
@[simp] theorem State.setDrawn_holds (n : Nat) (x : SourceId) (z : HostId) : (s.setDrawn n).holds x z = s.holds x z := rfl
@[simp] theorem State.setDrawn_ticketsOf (n : Nat) (x : HostId) : (s.setDrawn n).ticketsOf x = s.ticketsOf x := rfl
@[simp] theorem State.setDrawn_sourceTicket (n : Nat) (x : SourceId) : (s.setDrawn n).sourceTicket x = s.sourceTicket x := rfl
@[simp] theorem State.setDrawn_coveredBy (n : Nat) (x : SourceId) : (s.setDrawn n).coveredBy x = s.coveredBy x := rfl
@[simp] theorem State.setDrawn_heldArguments (n : Nat) (x : SourceId) : (s.setDrawn n).heldArguments x = s.heldArguments x := rfl
@[simp] theorem State.setDrawn_findLive (n : Nat) (x : Word) : (s.setDrawn n).findLive x = s.findLive x := rfl

/-! ### setPending -/
@[simp] theorem State.setPending_sources (q : List Instr) : (s.setPending q).sources = s.sources := rfl
@[simp] theorem State.setPending_lines (q : List Instr) : (s.setPending q).lines = s.lines := rfl
@[simp] theorem State.setPending_sampled (q : List Instr) : (s.setPending q).sampled = s.sampled := rfl
@[simp] theorem State.setPending_lanes (q : List Instr) : (s.setPending q).lanes = s.lanes := rfl
@[simp] theorem State.setPending_hosts (q : List Instr) : (s.setPending q).hosts = s.hosts := rfl
@[simp] theorem State.setPending_atn (q : List Instr) : (s.setPending q).atn = s.atn := rfl
@[simp] theorem State.setPending_waiting (q : List Instr) : (s.setPending q).waiting = s.waiting := rfl
@[simp] theorem State.setPending_rotation (q : List Instr) : (s.setPending q).rotation = s.rotation := rfl
@[simp] theorem State.setPending_slots (q : List Instr) : (s.setPending q).slots = s.slots := rfl
@[simp] theorem State.setPending_edit (q : List Instr) : (s.setPending q).edit = s.edit := rfl
@[simp] theorem State.setPending_faults (q : List Instr) : (s.setPending q).faults = s.faults := rfl
@[simp] theorem State.setPending_ports (q : List Instr) : (s.setPending q).ports = s.ports := rfl
@[simp] theorem State.setPending_clock (q : List Instr) : (s.setPending q).clock = s.clock := rfl
@[simp] theorem State.setPending_drawn (q : List Instr) : (s.setPending q).drawn = s.drawn := rfl
@[simp] theorem State.setPending_pending (q : List Instr) : (s.setPending q).pending = q := rfl
@[simp] theorem State.setPending_source (q : List Instr) (x : SourceId) : (s.setPending q).source x = s.source x := rfl
@[simp] theorem State.setPending_line (q : List Instr) (x : LineId) : (s.setPending q).line x = s.line x := rfl
@[simp] theorem State.setPending_creditLimit (q : List Instr) (x : LaneId) : (s.setPending q).creditLimit x = s.creditLimit x := rfl
@[simp] theorem State.setPending_host (q : List Instr) (x : HostId) : (s.setPending q).host x = s.host x := rfl
@[simp] theorem State.setPending_atnOf (q : List Instr) (x : HostId) : (s.setPending q).atnOf x = s.atnOf x := rfl
@[simp] theorem State.setPending_waitingClaim (q : List Instr) (x : HostId) : (s.setPending q).waitingClaim x = s.waitingClaim x := rfl
@[simp] theorem State.setPending_slot (q : List Instr) (x : SlotId) : (s.setPending q).slot x = s.slot x := rfl
@[simp] theorem State.setPending_port (q : List Instr) (x : HostId) : (s.setPending q).port x = s.port x := rfl
@[simp] theorem State.setPending_attached (q : List Instr) (x : HostId) : (s.setPending q).attached x = s.attached x := rfl
@[simp] theorem State.setPending_now (q : List Instr) : (s.setPending q).now = s.now := rfl
@[simp] theorem State.setPending_liveTickets (q : List Instr) : (s.setPending q).liveTickets = s.liveTickets := rfl
@[simp] theorem State.setPending_liveTotal (q : List Instr) : (s.setPending q).liveTotal = s.liveTotal := rfl
@[simp] theorem State.setPending_lowestFree (q : List Instr) : (s.setPending q).lowestFree = s.lowestFree := rfl
@[simp] theorem State.setPending_liveCount (q : List Instr) (x : HostId) (z : LaneId) : (s.setPending q).liveCount x z = s.liveCount x z := rfl
@[simp] theorem State.setPending_holds (q : List Instr) (x : SourceId) (z : HostId) : (s.setPending q).holds x z = s.holds x z := rfl
@[simp] theorem State.setPending_ticketsOf (q : List Instr) (x : HostId) : (s.setPending q).ticketsOf x = s.ticketsOf x := rfl
@[simp] theorem State.setPending_sourceTicket (q : List Instr) (x : SourceId) : (s.setPending q).sourceTicket x = s.sourceTicket x := rfl
@[simp] theorem State.setPending_coveredBy (q : List Instr) (x : SourceId) : (s.setPending q).coveredBy x = s.coveredBy x := rfl
@[simp] theorem State.setPending_heldArguments (q : List Instr) (x : SourceId) : (s.setPending q).heldArguments x = s.heldArguments x := rfl
@[simp] theorem State.setPending_findLive (q : List Instr) (x : Word) : (s.setPending q).findLive x = s.findLive x := rfl

/-! ### mapSources -/
@[simp] theorem State.mapSources_sources (f : SourceId → Source → Source) : (s.mapSources f).sources = Vector.ofFn fun i => f i (s.source i) := by simp only [State.mapSources]
@[simp] theorem State.mapSources_lines (f : SourceId → Source → Source) : (s.mapSources f).lines = s.lines := by simp only [State.mapSources]
@[simp] theorem State.mapSources_sampled (f : SourceId → Source → Source) : (s.mapSources f).sampled = s.sampled := by simp only [State.mapSources]
@[simp] theorem State.mapSources_lanes (f : SourceId → Source → Source) : (s.mapSources f).lanes = s.lanes := by simp only [State.mapSources]
@[simp] theorem State.mapSources_hosts (f : SourceId → Source → Source) : (s.mapSources f).hosts = s.hosts := by simp only [State.mapSources]
@[simp] theorem State.mapSources_atn (f : SourceId → Source → Source) : (s.mapSources f).atn = s.atn := by simp only [State.mapSources]
@[simp] theorem State.mapSources_waiting (f : SourceId → Source → Source) : (s.mapSources f).waiting = s.waiting := by simp only [State.mapSources]
@[simp] theorem State.mapSources_rotation (f : SourceId → Source → Source) : (s.mapSources f).rotation = s.rotation := by simp only [State.mapSources]
@[simp] theorem State.mapSources_slots (f : SourceId → Source → Source) : (s.mapSources f).slots = s.slots := by simp only [State.mapSources]
@[simp] theorem State.mapSources_edit (f : SourceId → Source → Source) : (s.mapSources f).edit = s.edit := by simp only [State.mapSources]
@[simp] theorem State.mapSources_faults (f : SourceId → Source → Source) : (s.mapSources f).faults = s.faults := by simp only [State.mapSources]
@[simp] theorem State.mapSources_ports (f : SourceId → Source → Source) : (s.mapSources f).ports = s.ports := by simp only [State.mapSources]
@[simp] theorem State.mapSources_clock (f : SourceId → Source → Source) : (s.mapSources f).clock = s.clock := by simp only [State.mapSources]
@[simp] theorem State.mapSources_drawn (f : SourceId → Source → Source) : (s.mapSources f).drawn = s.drawn := by simp only [State.mapSources]
@[simp] theorem State.mapSources_pending (f : SourceId → Source → Source) : (s.mapSources f).pending = s.pending := by simp only [State.mapSources]
@[simp] theorem State.mapSources_line (f : SourceId → Source → Source) (x : LineId) : (s.mapSources f).line x = s.line x := by
  simp only [State.mapSources, State.line]
@[simp] theorem State.mapSources_creditLimit (f : SourceId → Source → Source) (x : LaneId) : (s.mapSources f).creditLimit x = s.creditLimit x := by
  simp only [State.mapSources, State.creditLimit]
@[simp] theorem State.mapSources_host (f : SourceId → Source → Source) (x : HostId) : (s.mapSources f).host x = s.host x := by
  simp only [State.mapSources, State.host]
@[simp] theorem State.mapSources_atnOf (f : SourceId → Source → Source) (x : HostId) : (s.mapSources f).atnOf x = s.atnOf x := by
  simp only [State.mapSources, State.atnOf]
@[simp] theorem State.mapSources_waitingClaim (f : SourceId → Source → Source) (x : HostId) : (s.mapSources f).waitingClaim x = s.waitingClaim x := by
  simp only [State.mapSources, State.waitingClaim]
@[simp] theorem State.mapSources_slot (f : SourceId → Source → Source) (x : SlotId) : (s.mapSources f).slot x = s.slot x := by
  simp only [State.mapSources, State.slot]
@[simp] theorem State.mapSources_port (f : SourceId → Source → Source) (x : HostId) : (s.mapSources f).port x = s.port x := by
  simp only [State.mapSources, State.port]
@[simp] theorem State.mapSources_attached (f : SourceId → Source → Source) (x : HostId) : (s.mapSources f).attached x = s.attached x := by
  simp only [State.mapSources, State.attached, State.host]
@[simp] theorem State.mapSources_now (f : SourceId → Source → Source) : (s.mapSources f).now = s.now := by
  simp only [State.mapSources, State.now]
@[simp] theorem State.mapSources_liveTickets (f : SourceId → Source → Source) : (s.mapSources f).liveTickets = s.liveTickets := by
  simp only [State.mapSources, State.liveTickets, State.slot]
@[simp] theorem State.mapSources_liveTotal (f : SourceId → Source → Source) : (s.mapSources f).liveTotal = s.liveTotal := by
  simp only [State.mapSources, State.liveTotal, State.liveTickets, State.slot]
@[simp] theorem State.mapSources_lowestFree (f : SourceId → Source → Source) : (s.mapSources f).lowestFree = s.lowestFree := by
  simp only [State.mapSources, State.lowestFree, State.slot]
@[simp] theorem State.mapSources_liveCount (f : SourceId → Source → Source) (x : HostId) (z : LaneId) : (s.mapSources f).liveCount x z = s.liveCount x z := by
  simp only [State.mapSources, State.liveCount, State.liveTickets, State.slot]
@[simp] theorem State.mapSources_holds (f : SourceId → Source → Source) (x : SourceId) (z : HostId) : (s.mapSources f).holds x z = s.holds x z := by
  simp only [State.mapSources, State.holds, State.liveTickets, State.slot]
@[simp] theorem State.mapSources_ticketsOf (f : SourceId → Source → Source) (x : HostId) : (s.mapSources f).ticketsOf x = s.ticketsOf x := by
  simp only [State.mapSources, State.ticketsOf, State.liveTickets, State.slot]
@[simp] theorem State.mapSources_sourceTicket (f : SourceId → Source → Source) (x : SourceId) : (s.mapSources f).sourceTicket x = s.sourceTicket x := by
  simp only [State.mapSources, State.sourceTicket, State.liveTickets, State.slot]
@[simp] theorem State.mapSources_coveredBy (f : SourceId → Source → Source) (x : SourceId) : (s.mapSources f).coveredBy x = s.coveredBy x := by
  simp only [State.mapSources, State.coveredBy, State.sourceTicket, State.liveTickets, State.slot]
@[simp] theorem State.mapSources_heldArguments (f : SourceId → Source → Source) (x : SourceId) : (s.mapSources f).heldArguments x = s.heldArguments x := by
  simp only [State.mapSources, State.heldArguments, State.liveTickets, State.slot]
@[simp] theorem State.mapSources_findLive (f : SourceId → Source → Source) (x : Word) : (s.mapSources f).findLive x = s.findLive x := by
  simp only [State.mapSources, State.findLive, State.slot]

/-! ### mapLines -/
@[simp] theorem State.mapLines_sources (f : LineId → Line → Line) : (s.mapLines f).sources = s.sources := by simp only [State.mapLines]
@[simp] theorem State.mapLines_lines (f : LineId → Line → Line) : (s.mapLines f).lines = Vector.ofFn fun i => f i (s.line i) := by simp only [State.mapLines]
@[simp] theorem State.mapLines_sampled (f : LineId → Line → Line) : (s.mapLines f).sampled = s.sampled := by simp only [State.mapLines]
@[simp] theorem State.mapLines_lanes (f : LineId → Line → Line) : (s.mapLines f).lanes = s.lanes := by simp only [State.mapLines]
@[simp] theorem State.mapLines_hosts (f : LineId → Line → Line) : (s.mapLines f).hosts = s.hosts := by simp only [State.mapLines]
@[simp] theorem State.mapLines_atn (f : LineId → Line → Line) : (s.mapLines f).atn = s.atn := by simp only [State.mapLines]
@[simp] theorem State.mapLines_waiting (f : LineId → Line → Line) : (s.mapLines f).waiting = s.waiting := by simp only [State.mapLines]
@[simp] theorem State.mapLines_rotation (f : LineId → Line → Line) : (s.mapLines f).rotation = s.rotation := by simp only [State.mapLines]
@[simp] theorem State.mapLines_slots (f : LineId → Line → Line) : (s.mapLines f).slots = s.slots := by simp only [State.mapLines]
@[simp] theorem State.mapLines_edit (f : LineId → Line → Line) : (s.mapLines f).edit = s.edit := by simp only [State.mapLines]
@[simp] theorem State.mapLines_faults (f : LineId → Line → Line) : (s.mapLines f).faults = s.faults := by simp only [State.mapLines]
@[simp] theorem State.mapLines_ports (f : LineId → Line → Line) : (s.mapLines f).ports = s.ports := by simp only [State.mapLines]
@[simp] theorem State.mapLines_clock (f : LineId → Line → Line) : (s.mapLines f).clock = s.clock := by simp only [State.mapLines]
@[simp] theorem State.mapLines_drawn (f : LineId → Line → Line) : (s.mapLines f).drawn = s.drawn := by simp only [State.mapLines]
@[simp] theorem State.mapLines_pending (f : LineId → Line → Line) : (s.mapLines f).pending = s.pending := by simp only [State.mapLines]
@[simp] theorem State.mapLines_source (f : LineId → Line → Line) (x : SourceId) : (s.mapLines f).source x = s.source x := by
  simp only [State.mapLines, State.source]
@[simp] theorem State.mapLines_creditLimit (f : LineId → Line → Line) (x : LaneId) : (s.mapLines f).creditLimit x = s.creditLimit x := by
  simp only [State.mapLines, State.creditLimit]
@[simp] theorem State.mapLines_host (f : LineId → Line → Line) (x : HostId) : (s.mapLines f).host x = s.host x := by
  simp only [State.mapLines, State.host]
@[simp] theorem State.mapLines_atnOf (f : LineId → Line → Line) (x : HostId) : (s.mapLines f).atnOf x = s.atnOf x := by
  simp only [State.mapLines, State.atnOf]
@[simp] theorem State.mapLines_waitingClaim (f : LineId → Line → Line) (x : HostId) : (s.mapLines f).waitingClaim x = s.waitingClaim x := by
  simp only [State.mapLines, State.waitingClaim]
@[simp] theorem State.mapLines_slot (f : LineId → Line → Line) (x : SlotId) : (s.mapLines f).slot x = s.slot x := by
  simp only [State.mapLines, State.slot]
@[simp] theorem State.mapLines_port (f : LineId → Line → Line) (x : HostId) : (s.mapLines f).port x = s.port x := by
  simp only [State.mapLines, State.port]
@[simp] theorem State.mapLines_attached (f : LineId → Line → Line) (x : HostId) : (s.mapLines f).attached x = s.attached x := by
  simp only [State.mapLines, State.attached, State.host]
@[simp] theorem State.mapLines_now (f : LineId → Line → Line) : (s.mapLines f).now = s.now := by
  simp only [State.mapLines, State.now]
@[simp] theorem State.mapLines_liveTickets (f : LineId → Line → Line) : (s.mapLines f).liveTickets = s.liveTickets := by
  simp only [State.mapLines, State.liveTickets, State.slot]
@[simp] theorem State.mapLines_liveTotal (f : LineId → Line → Line) : (s.mapLines f).liveTotal = s.liveTotal := by
  simp only [State.mapLines, State.liveTotal, State.liveTickets, State.slot]
@[simp] theorem State.mapLines_lowestFree (f : LineId → Line → Line) : (s.mapLines f).lowestFree = s.lowestFree := by
  simp only [State.mapLines, State.lowestFree, State.slot]
@[simp] theorem State.mapLines_liveCount (f : LineId → Line → Line) (x : HostId) (z : LaneId) : (s.mapLines f).liveCount x z = s.liveCount x z := by
  simp only [State.mapLines, State.liveCount, State.liveTickets, State.slot]
@[simp] theorem State.mapLines_holds (f : LineId → Line → Line) (x : SourceId) (z : HostId) : (s.mapLines f).holds x z = s.holds x z := by
  simp only [State.mapLines, State.holds, State.liveTickets, State.slot]
@[simp] theorem State.mapLines_ticketsOf (f : LineId → Line → Line) (x : HostId) : (s.mapLines f).ticketsOf x = s.ticketsOf x := by
  simp only [State.mapLines, State.ticketsOf, State.liveTickets, State.slot]
@[simp] theorem State.mapLines_sourceTicket (f : LineId → Line → Line) (x : SourceId) : (s.mapLines f).sourceTicket x = s.sourceTicket x := by
  simp only [State.mapLines, State.sourceTicket, State.liveTickets, State.slot]
@[simp] theorem State.mapLines_coveredBy (f : LineId → Line → Line) (x : SourceId) : (s.mapLines f).coveredBy x = s.coveredBy x := by
  simp only [State.mapLines, State.coveredBy, State.sourceTicket, State.liveTickets, State.slot]
@[simp] theorem State.mapLines_heldArguments (f : LineId → Line → Line) (x : SourceId) : (s.mapLines f).heldArguments x = s.heldArguments x := by
  simp only [State.mapLines, State.heldArguments, State.liveTickets, State.slot]
@[simp] theorem State.mapLines_findLive (f : LineId → Line → Line) (x : Word) : (s.mapLines f).findLive x = s.findLive x := by
  simp only [State.mapLines, State.findLive, State.slot]

/-! ### mapPorts -/
@[simp] theorem State.mapPorts_sources (f : HostId → Port → Port) : (s.mapPorts f).sources = s.sources := by simp only [State.mapPorts]
@[simp] theorem State.mapPorts_lines (f : HostId → Port → Port) : (s.mapPorts f).lines = s.lines := by simp only [State.mapPorts]
@[simp] theorem State.mapPorts_sampled (f : HostId → Port → Port) : (s.mapPorts f).sampled = s.sampled := by simp only [State.mapPorts]
@[simp] theorem State.mapPorts_lanes (f : HostId → Port → Port) : (s.mapPorts f).lanes = s.lanes := by simp only [State.mapPorts]
@[simp] theorem State.mapPorts_hosts (f : HostId → Port → Port) : (s.mapPorts f).hosts = s.hosts := by simp only [State.mapPorts]
@[simp] theorem State.mapPorts_atn (f : HostId → Port → Port) : (s.mapPorts f).atn = s.atn := by simp only [State.mapPorts]
@[simp] theorem State.mapPorts_waiting (f : HostId → Port → Port) : (s.mapPorts f).waiting = s.waiting := by simp only [State.mapPorts]
@[simp] theorem State.mapPorts_rotation (f : HostId → Port → Port) : (s.mapPorts f).rotation = s.rotation := by simp only [State.mapPorts]
@[simp] theorem State.mapPorts_slots (f : HostId → Port → Port) : (s.mapPorts f).slots = s.slots := by simp only [State.mapPorts]
@[simp] theorem State.mapPorts_edit (f : HostId → Port → Port) : (s.mapPorts f).edit = s.edit := by simp only [State.mapPorts]
@[simp] theorem State.mapPorts_faults (f : HostId → Port → Port) : (s.mapPorts f).faults = s.faults := by simp only [State.mapPorts]
@[simp] theorem State.mapPorts_ports (f : HostId → Port → Port) : (s.mapPorts f).ports = Vector.ofFn fun h => f h (s.port h) := by simp only [State.mapPorts]
@[simp] theorem State.mapPorts_clock (f : HostId → Port → Port) : (s.mapPorts f).clock = s.clock := by simp only [State.mapPorts]
@[simp] theorem State.mapPorts_drawn (f : HostId → Port → Port) : (s.mapPorts f).drawn = s.drawn := by simp only [State.mapPorts]
@[simp] theorem State.mapPorts_pending (f : HostId → Port → Port) : (s.mapPorts f).pending = s.pending := by simp only [State.mapPorts]
@[simp] theorem State.mapPorts_source (f : HostId → Port → Port) (x : SourceId) : (s.mapPorts f).source x = s.source x := by
  simp only [State.mapPorts, State.source]
@[simp] theorem State.mapPorts_line (f : HostId → Port → Port) (x : LineId) : (s.mapPorts f).line x = s.line x := by
  simp only [State.mapPorts, State.line]
@[simp] theorem State.mapPorts_creditLimit (f : HostId → Port → Port) (x : LaneId) : (s.mapPorts f).creditLimit x = s.creditLimit x := by
  simp only [State.mapPorts, State.creditLimit]
@[simp] theorem State.mapPorts_host (f : HostId → Port → Port) (x : HostId) : (s.mapPorts f).host x = s.host x := by
  simp only [State.mapPorts, State.host]
@[simp] theorem State.mapPorts_atnOf (f : HostId → Port → Port) (x : HostId) : (s.mapPorts f).atnOf x = s.atnOf x := by
  simp only [State.mapPorts, State.atnOf]
@[simp] theorem State.mapPorts_waitingClaim (f : HostId → Port → Port) (x : HostId) : (s.mapPorts f).waitingClaim x = s.waitingClaim x := by
  simp only [State.mapPorts, State.waitingClaim]
@[simp] theorem State.mapPorts_slot (f : HostId → Port → Port) (x : SlotId) : (s.mapPorts f).slot x = s.slot x := by
  simp only [State.mapPorts, State.slot]
@[simp] theorem State.mapPorts_attached (f : HostId → Port → Port) (x : HostId) : (s.mapPorts f).attached x = s.attached x := by
  simp only [State.mapPorts, State.attached, State.host]
@[simp] theorem State.mapPorts_now (f : HostId → Port → Port) : (s.mapPorts f).now = s.now := by
  simp only [State.mapPorts, State.now]
@[simp] theorem State.mapPorts_liveTickets (f : HostId → Port → Port) : (s.mapPorts f).liveTickets = s.liveTickets := by
  simp only [State.mapPorts, State.liveTickets, State.slot]
@[simp] theorem State.mapPorts_liveTotal (f : HostId → Port → Port) : (s.mapPorts f).liveTotal = s.liveTotal := by
  simp only [State.mapPorts, State.liveTotal, State.liveTickets, State.slot]
@[simp] theorem State.mapPorts_lowestFree (f : HostId → Port → Port) : (s.mapPorts f).lowestFree = s.lowestFree := by
  simp only [State.mapPorts, State.lowestFree, State.slot]
@[simp] theorem State.mapPorts_liveCount (f : HostId → Port → Port) (x : HostId) (z : LaneId) : (s.mapPorts f).liveCount x z = s.liveCount x z := by
  simp only [State.mapPorts, State.liveCount, State.liveTickets, State.slot]
@[simp] theorem State.mapPorts_holds (f : HostId → Port → Port) (x : SourceId) (z : HostId) : (s.mapPorts f).holds x z = s.holds x z := by
  simp only [State.mapPorts, State.holds, State.liveTickets, State.slot]
@[simp] theorem State.mapPorts_ticketsOf (f : HostId → Port → Port) (x : HostId) : (s.mapPorts f).ticketsOf x = s.ticketsOf x := by
  simp only [State.mapPorts, State.ticketsOf, State.liveTickets, State.slot]
@[simp] theorem State.mapPorts_sourceTicket (f : HostId → Port → Port) (x : SourceId) : (s.mapPorts f).sourceTicket x = s.sourceTicket x := by
  simp only [State.mapPorts, State.sourceTicket, State.liveTickets, State.slot]
@[simp] theorem State.mapPorts_coveredBy (f : HostId → Port → Port) (x : SourceId) : (s.mapPorts f).coveredBy x = s.coveredBy x := by
  simp only [State.mapPorts, State.coveredBy, State.sourceTicket, State.liveTickets, State.slot]
@[simp] theorem State.mapPorts_heldArguments (f : HostId → Port → Port) (x : SourceId) : (s.mapPorts f).heldArguments x = s.heldArguments x := by
  simp only [State.mapPorts, State.heldArguments, State.liveTickets, State.slot]
@[simp] theorem State.mapPorts_findLive (f : HostId → Port → Port) (x : Word) : (s.mapPorts f).findLive x = s.findLive x := by
  simp only [State.mapPorts, State.findLive, State.slot]

/-! ### What is read where it was written -/

/-- A record set in a table is read back, and every other record is as it was. -/
theorem getElem_set_fin {α : Type} {n : Nat} (v : Vector α n) (i j : Fin n) (x : α) :
    (v.set i x)[j] = if i = j then x else v[j] := by
  simp [Vector.getElem_set, Fin.ext_iff]

theorem State.setSource_source (i : SourceId) (r : Source) (j : SourceId) :
    (s.setSource i r).source j = if i = j then r else s.source j := getElem_set_fin _ _ _ _
@[simp] theorem State.setSource_source_self (i : SourceId) (r : Source) : (s.setSource i r).source i = r := by
  simp [State.setSource_source]
theorem State.setSource_source_ne (i : SourceId) (r : Source) (j : SourceId) (h : i ≠ j) : (s.setSource i r).source j = s.source j := by
  simp [State.setSource_source, h]
theorem State.setLine_line (i : LineId) (r : Line) (j : LineId) :
    (s.setLine i r).line j = if i = j then r else s.line j := getElem_set_fin _ _ _ _
@[simp] theorem State.setLine_line_self (i : LineId) (r : Line) : (s.setLine i r).line i = r := by
  simp [State.setLine_line]
theorem State.setLine_line_ne (i : LineId) (r : Line) (j : LineId) (h : i ≠ j) : (s.setLine i r).line j = s.line j := by
  simp [State.setLine_line, h]
theorem State.setCreditLimit_creditLimit (i : LaneId) (r : Nat) (j : LaneId) :
    (s.setCreditLimit i r).creditLimit j = if i = j then r else s.creditLimit j := getElem_set_fin _ _ _ _
@[simp] theorem State.setCreditLimit_creditLimit_self (i : LaneId) (r : Nat) : (s.setCreditLimit i r).creditLimit i = r := by
  simp [State.setCreditLimit_creditLimit]
theorem State.setCreditLimit_creditLimit_ne (i : LaneId) (r : Nat) (j : LaneId) (h : i ≠ j) : (s.setCreditLimit i r).creditLimit j = s.creditLimit j := by
  simp [State.setCreditLimit_creditLimit, h]
theorem State.setHost_host (i : HostId) (r : HostRec) (j : HostId) :
    (s.setHost i r).host j = if i = j then r else s.host j := getElem_set_fin _ _ _ _
@[simp] theorem State.setHost_host_self (i : HostId) (r : HostRec) : (s.setHost i r).host i = r := by
  simp [State.setHost_host]
theorem State.setHost_host_ne (i : HostId) (r : HostRec) (j : HostId) (h : i ≠ j) : (s.setHost i r).host j = s.host j := by
  simp [State.setHost_host, h]
theorem State.setWaiting_waitingClaim (i : HostId) (r : Option Byte) (j : HostId) :
    (s.setWaiting i r).waitingClaim j = if i = j then r else s.waitingClaim j := getElem_set_fin _ _ _ _
@[simp] theorem State.setWaiting_waitingClaim_self (i : HostId) (r : Option Byte) : (s.setWaiting i r).waitingClaim i = r := by
  simp [State.setWaiting_waitingClaim]
theorem State.setWaiting_waitingClaim_ne (i : HostId) (r : Option Byte) (j : HostId) (h : i ≠ j) : (s.setWaiting i r).waitingClaim j = s.waitingClaim j := by
  simp [State.setWaiting_waitingClaim, h]
theorem State.setSlot_slot (i : SlotId) (r : Slot) (j : SlotId) :
    (s.setSlot i r).slot j = if i = j then r else s.slot j := getElem_set_fin _ _ _ _
@[simp] theorem State.setSlot_slot_self (i : SlotId) (r : Slot) : (s.setSlot i r).slot i = r := by
  simp [State.setSlot_slot]
theorem State.setSlot_slot_ne (i : SlotId) (r : Slot) (j : SlotId) (h : i ≠ j) : (s.setSlot i r).slot j = s.slot j := by
  simp [State.setSlot_slot, h]
theorem State.setPort_port (i : HostId) (r : Port) (j : HostId) :
    (s.setPort i r).port j = if i = j then r else s.port j := getElem_set_fin _ _ _ _
@[simp] theorem State.setPort_port_self (i : HostId) (r : Port) : (s.setPort i r).port i = r := by
  simp [State.setPort_port]
theorem State.setPort_port_ne (i : HostId) (r : Port) (j : HostId) (h : i ≠ j) : (s.setPort i r).port j = s.port j := by
  simp [State.setPort_port, h]
@[simp] theorem State.mapSources_source (f : SourceId → Source → Source) (i : SourceId) :
    (s.mapSources f).source i = f i (s.source i) := by
  simp [State.mapSources, State.source]
@[simp] theorem State.mapLines_line (f : LineId → Line → Line) (i : LineId) :
    (s.mapLines f).line i = f i (s.line i) := by
  simp [State.mapLines, State.line]
@[simp] theorem State.mapPorts_port (f : HostId → Port → Port) (h : HostId) :
    (s.mapPorts f).port h = f h (s.port h) := by
  simp [State.mapPorts, State.port]
@[simp] theorem State.setAtn_atnOf (v : Vector Bool 4) (h : HostId) : (s.setAtn v).atnOf h = v[h] := rfl
@[simp] theorem State.setClock_now (c : Clock) : (s.setClock c).now = c.ms := rfl
theorem State.setHost_attached (h : HostId) (r : HostRec) (x : HostId) :
    (s.setHost h r).attached x = if h = x then r.attached else s.attached x := by
  simp only [State.attached, State.setHost_host]
  split <;> rfl
@[simp] theorem State.setHost_attached_self (h : HostId) (r : HostRec) : (s.setHost h r).attached h = r.attached := by
  simp [State.setHost_attached]

/-- Two states with the same records in every source, and nothing else between them, are the same. -/
theorem sources_ext {v w : Vector Source 64} (h : ∀ i : SourceId, v[i] = w[i]) : v = w :=
  Vector.ext fun i hi => h ⟨i, hi⟩

end Sys2Proof.Machine
end

