-- ==== Sys2Proof/Laws/Frames.lean ====
section
/-! SUPPORT. The frame of every shared operation: the tables it may change, and, for every other field and look-up of the
state, that it is as it was. -/

namespace Sys2Proof.Machine

variable (s : State)

/-- The level check changes sources alone. -/
theorem levelCheck_frame (i : SourceId) :
    levelCheck i s =
      { s with
        sources := (levelCheck i s).sources } := by
  unfold levelCheck
  dsimp only
  split
  · split
    · split <;> rfl
    · rfl
  · rfl
@[simp] theorem levelCheck_lines (i : SourceId) : (levelCheck i s).lines = s.lines := by
  rw [levelCheck_frame s i]
@[simp] theorem levelCheck_sampled (i : SourceId) : (levelCheck i s).sampled = s.sampled := by
  rw [levelCheck_frame s i]
@[simp] theorem levelCheck_lanes (i : SourceId) : (levelCheck i s).lanes = s.lanes := by
  rw [levelCheck_frame s i]
@[simp] theorem levelCheck_hosts (i : SourceId) : (levelCheck i s).hosts = s.hosts := by
  rw [levelCheck_frame s i]
@[simp] theorem levelCheck_atn (i : SourceId) : (levelCheck i s).atn = s.atn := by
  rw [levelCheck_frame s i]
@[simp] theorem levelCheck_waiting (i : SourceId) : (levelCheck i s).waiting = s.waiting := by
  rw [levelCheck_frame s i]
@[simp] theorem levelCheck_rotation (i : SourceId) : (levelCheck i s).rotation = s.rotation := by
  rw [levelCheck_frame s i]
@[simp] theorem levelCheck_slots (i : SourceId) : (levelCheck i s).slots = s.slots := by
  rw [levelCheck_frame s i]
@[simp] theorem levelCheck_edit (i : SourceId) : (levelCheck i s).edit = s.edit := by
  rw [levelCheck_frame s i]
@[simp] theorem levelCheck_faults (i : SourceId) : (levelCheck i s).faults = s.faults := by
  rw [levelCheck_frame s i]
@[simp] theorem levelCheck_ports (i : SourceId) : (levelCheck i s).ports = s.ports := by
  rw [levelCheck_frame s i]
@[simp] theorem levelCheck_clock (i : SourceId) : (levelCheck i s).clock = s.clock := by
  rw [levelCheck_frame s i]
@[simp] theorem levelCheck_drawn (i : SourceId) : (levelCheck i s).drawn = s.drawn := by
  rw [levelCheck_frame s i]
@[simp] theorem levelCheck_pending (i : SourceId) : (levelCheck i s).pending = s.pending := by
  rw [levelCheck_frame s i]
@[simp] theorem levelCheck_line (i : SourceId) (x : LineId) : (levelCheck i s).line x = s.line x := by
  simp only [State.line, levelCheck_lines]
@[simp] theorem levelCheck_creditLimit (i : SourceId) (x : LaneId) : (levelCheck i s).creditLimit x = s.creditLimit x := by
  simp only [State.creditLimit, levelCheck_lanes]
@[simp] theorem levelCheck_host (i : SourceId) (x : HostId) : (levelCheck i s).host x = s.host x := by
  simp only [State.host, levelCheck_hosts]
@[simp] theorem levelCheck_atnOf (i : SourceId) (x : HostId) : (levelCheck i s).atnOf x = s.atnOf x := by
  simp only [State.atnOf, levelCheck_atn]
@[simp] theorem levelCheck_waitingClaim (i : SourceId) (x : HostId) : (levelCheck i s).waitingClaim x = s.waitingClaim x := by
  simp only [State.waitingClaim, levelCheck_waiting]
@[simp] theorem levelCheck_slot (i : SourceId) (x : SlotId) : (levelCheck i s).slot x = s.slot x := by
  simp only [State.slot, levelCheck_slots]
@[simp] theorem levelCheck_port (i : SourceId) (x : HostId) : (levelCheck i s).port x = s.port x := by
  simp only [State.port, levelCheck_ports]
@[simp] theorem levelCheck_attached (i : SourceId) (x : HostId) : (levelCheck i s).attached x = s.attached x := by
  simp only [State.attached, State.host, levelCheck_hosts]
@[simp] theorem levelCheck_now (i : SourceId) : (levelCheck i s).now = s.now := by
  simp only [State.now, levelCheck_clock]
@[simp] theorem levelCheck_liveTickets (i : SourceId) : (levelCheck i s).liveTickets = s.liveTickets := by
  simp only [State.liveTickets, State.slot, levelCheck_slots]

/-- The level check for an attaching host changes sources alone. -/
theorem levelCheckFor_frame (h : HostId) (i : SourceId) :
    levelCheckFor h i s =
      { s with
        sources := (levelCheckFor h i s).sources } := by
  unfold levelCheckFor
  dsimp only
  split <;> rfl
@[simp] theorem levelCheckFor_lines (h : HostId) (i : SourceId) : (levelCheckFor h i s).lines = s.lines := by
  rw [levelCheckFor_frame s h i]
@[simp] theorem levelCheckFor_sampled (h : HostId) (i : SourceId) : (levelCheckFor h i s).sampled = s.sampled := by
  rw [levelCheckFor_frame s h i]
@[simp] theorem levelCheckFor_lanes (h : HostId) (i : SourceId) : (levelCheckFor h i s).lanes = s.lanes := by
  rw [levelCheckFor_frame s h i]
@[simp] theorem levelCheckFor_hosts (h : HostId) (i : SourceId) : (levelCheckFor h i s).hosts = s.hosts := by
  rw [levelCheckFor_frame s h i]
@[simp] theorem levelCheckFor_atn (h : HostId) (i : SourceId) : (levelCheckFor h i s).atn = s.atn := by
  rw [levelCheckFor_frame s h i]
@[simp] theorem levelCheckFor_waiting (h : HostId) (i : SourceId) : (levelCheckFor h i s).waiting = s.waiting := by
  rw [levelCheckFor_frame s h i]
@[simp] theorem levelCheckFor_rotation (h : HostId) (i : SourceId) : (levelCheckFor h i s).rotation = s.rotation := by
  rw [levelCheckFor_frame s h i]
@[simp] theorem levelCheckFor_slots (h : HostId) (i : SourceId) : (levelCheckFor h i s).slots = s.slots := by
  rw [levelCheckFor_frame s h i]
@[simp] theorem levelCheckFor_edit (h : HostId) (i : SourceId) : (levelCheckFor h i s).edit = s.edit := by
  rw [levelCheckFor_frame s h i]
@[simp] theorem levelCheckFor_faults (h : HostId) (i : SourceId) : (levelCheckFor h i s).faults = s.faults := by
  rw [levelCheckFor_frame s h i]
@[simp] theorem levelCheckFor_ports (h : HostId) (i : SourceId) : (levelCheckFor h i s).ports = s.ports := by
  rw [levelCheckFor_frame s h i]
@[simp] theorem levelCheckFor_clock (h : HostId) (i : SourceId) : (levelCheckFor h i s).clock = s.clock := by
  rw [levelCheckFor_frame s h i]
@[simp] theorem levelCheckFor_drawn (h : HostId) (i : SourceId) : (levelCheckFor h i s).drawn = s.drawn := by
  rw [levelCheckFor_frame s h i]
@[simp] theorem levelCheckFor_pending (h : HostId) (i : SourceId) : (levelCheckFor h i s).pending = s.pending := by
  rw [levelCheckFor_frame s h i]
@[simp] theorem levelCheckFor_line (h : HostId) (i : SourceId) (x : LineId) : (levelCheckFor h i s).line x = s.line x := by
  simp only [State.line, levelCheckFor_lines]
@[simp] theorem levelCheckFor_creditLimit (h : HostId) (i : SourceId) (x : LaneId) : (levelCheckFor h i s).creditLimit x = s.creditLimit x := by
  simp only [State.creditLimit, levelCheckFor_lanes]
@[simp] theorem levelCheckFor_host (h : HostId) (i : SourceId) (x : HostId) : (levelCheckFor h i s).host x = s.host x := by
  simp only [State.host, levelCheckFor_hosts]
@[simp] theorem levelCheckFor_atnOf (h : HostId) (i : SourceId) (x : HostId) : (levelCheckFor h i s).atnOf x = s.atnOf x := by
  simp only [State.atnOf, levelCheckFor_atn]
@[simp] theorem levelCheckFor_waitingClaim (h : HostId) (i : SourceId) (x : HostId) : (levelCheckFor h i s).waitingClaim x = s.waitingClaim x := by
  simp only [State.waitingClaim, levelCheckFor_waiting]
@[simp] theorem levelCheckFor_slot (h : HostId) (i : SourceId) (x : SlotId) : (levelCheckFor h i s).slot x = s.slot x := by
  simp only [State.slot, levelCheckFor_slots]
@[simp] theorem levelCheckFor_port (h : HostId) (i : SourceId) (x : HostId) : (levelCheckFor h i s).port x = s.port x := by
  simp only [State.port, levelCheckFor_ports]
@[simp] theorem levelCheckFor_attached (h : HostId) (i : SourceId) (x : HostId) : (levelCheckFor h i s).attached x = s.attached x := by
  simp only [State.attached, State.host, levelCheckFor_hosts]
@[simp] theorem levelCheckFor_now (h : HostId) (i : SourceId) : (levelCheckFor h i s).now = s.now := by
  simp only [State.now, levelCheckFor_clock]
@[simp] theorem levelCheckFor_liveTickets (h : HostId) (i : SourceId) : (levelCheckFor h i s).liveTickets = s.liveTickets := by
  simp only [State.liveTickets, State.slot, levelCheckFor_slots]

/-- A notice changes sources alone. -/
theorem takeNotice_frame :
    takeNotice s =
      { s with
        sources := (takeNotice s).sources } := by
  unfold takeNotice
  dsimp only
  split
  · split <;> rfl
  · rfl
@[simp] theorem takeNotice_lines : (takeNotice s).lines = s.lines := by
  rw [takeNotice_frame s]
@[simp] theorem takeNotice_sampled : (takeNotice s).sampled = s.sampled := by
  rw [takeNotice_frame s]
@[simp] theorem takeNotice_lanes : (takeNotice s).lanes = s.lanes := by
  rw [takeNotice_frame s]
@[simp] theorem takeNotice_hosts : (takeNotice s).hosts = s.hosts := by
  rw [takeNotice_frame s]
@[simp] theorem takeNotice_atn : (takeNotice s).atn = s.atn := by
  rw [takeNotice_frame s]
@[simp] theorem takeNotice_waiting : (takeNotice s).waiting = s.waiting := by
  rw [takeNotice_frame s]
@[simp] theorem takeNotice_rotation : (takeNotice s).rotation = s.rotation := by
  rw [takeNotice_frame s]
@[simp] theorem takeNotice_slots : (takeNotice s).slots = s.slots := by
  rw [takeNotice_frame s]
@[simp] theorem takeNotice_edit : (takeNotice s).edit = s.edit := by
  rw [takeNotice_frame s]
@[simp] theorem takeNotice_faults : (takeNotice s).faults = s.faults := by
  rw [takeNotice_frame s]
@[simp] theorem takeNotice_ports : (takeNotice s).ports = s.ports := by
  rw [takeNotice_frame s]
@[simp] theorem takeNotice_clock : (takeNotice s).clock = s.clock := by
  rw [takeNotice_frame s]
@[simp] theorem takeNotice_drawn : (takeNotice s).drawn = s.drawn := by
  rw [takeNotice_frame s]
@[simp] theorem takeNotice_pending : (takeNotice s).pending = s.pending := by
  rw [takeNotice_frame s]
@[simp] theorem takeNotice_line (x : LineId) : (takeNotice s).line x = s.line x := by
  simp only [State.line, takeNotice_lines]
@[simp] theorem takeNotice_creditLimit (x : LaneId) : (takeNotice s).creditLimit x = s.creditLimit x := by
  simp only [State.creditLimit, takeNotice_lanes]
@[simp] theorem takeNotice_host (x : HostId) : (takeNotice s).host x = s.host x := by
  simp only [State.host, takeNotice_hosts]
@[simp] theorem takeNotice_atnOf (x : HostId) : (takeNotice s).atnOf x = s.atnOf x := by
  simp only [State.atnOf, takeNotice_atn]
@[simp] theorem takeNotice_waitingClaim (x : HostId) : (takeNotice s).waitingClaim x = s.waitingClaim x := by
  simp only [State.waitingClaim, takeNotice_waiting]
@[simp] theorem takeNotice_slot (x : SlotId) : (takeNotice s).slot x = s.slot x := by
  simp only [State.slot, takeNotice_slots]
@[simp] theorem takeNotice_port (x : HostId) : (takeNotice s).port x = s.port x := by
  simp only [State.port, takeNotice_ports]
@[simp] theorem takeNotice_attached (x : HostId) : (takeNotice s).attached x = s.attached x := by
  simp only [State.attached, State.host, takeNotice_hosts]
@[simp] theorem takeNotice_now : (takeNotice s).now = s.now := by
  simp only [State.now, takeNotice_clock]
@[simp] theorem takeNotice_liveTickets : (takeNotice s).liveTickets = s.liveTickets := by
  simp only [State.liveTickets, State.slot, takeNotice_slots]

/-- A store changes sources, faults alone. -/
theorem storeFault_frame (c : FaultCause) :
    storeFault c s =
      { s with
        sources := (storeFault c s).sources
        faults := (storeFault c s).faults } := by
  unfold storeFault
  rw [takeNotice_frame]
  rfl
@[simp] theorem storeFault_lines (c : FaultCause) : (storeFault c s).lines = s.lines := by
  rw [storeFault_frame s c]
@[simp] theorem storeFault_sampled (c : FaultCause) : (storeFault c s).sampled = s.sampled := by
  rw [storeFault_frame s c]
@[simp] theorem storeFault_lanes (c : FaultCause) : (storeFault c s).lanes = s.lanes := by
  rw [storeFault_frame s c]
@[simp] theorem storeFault_hosts (c : FaultCause) : (storeFault c s).hosts = s.hosts := by
  rw [storeFault_frame s c]
@[simp] theorem storeFault_atn (c : FaultCause) : (storeFault c s).atn = s.atn := by
  rw [storeFault_frame s c]
@[simp] theorem storeFault_waiting (c : FaultCause) : (storeFault c s).waiting = s.waiting := by
  rw [storeFault_frame s c]
@[simp] theorem storeFault_rotation (c : FaultCause) : (storeFault c s).rotation = s.rotation := by
  rw [storeFault_frame s c]
@[simp] theorem storeFault_slots (c : FaultCause) : (storeFault c s).slots = s.slots := by
  rw [storeFault_frame s c]
@[simp] theorem storeFault_edit (c : FaultCause) : (storeFault c s).edit = s.edit := by
  rw [storeFault_frame s c]
@[simp] theorem storeFault_ports (c : FaultCause) : (storeFault c s).ports = s.ports := by
  rw [storeFault_frame s c]
@[simp] theorem storeFault_clock (c : FaultCause) : (storeFault c s).clock = s.clock := by
  rw [storeFault_frame s c]
@[simp] theorem storeFault_drawn (c : FaultCause) : (storeFault c s).drawn = s.drawn := by
  rw [storeFault_frame s c]
@[simp] theorem storeFault_pending (c : FaultCause) : (storeFault c s).pending = s.pending := by
  rw [storeFault_frame s c]
@[simp] theorem storeFault_line (c : FaultCause) (x : LineId) : (storeFault c s).line x = s.line x := by
  simp only [State.line, storeFault_lines]
@[simp] theorem storeFault_creditLimit (c : FaultCause) (x : LaneId) : (storeFault c s).creditLimit x = s.creditLimit x := by
  simp only [State.creditLimit, storeFault_lanes]
@[simp] theorem storeFault_host (c : FaultCause) (x : HostId) : (storeFault c s).host x = s.host x := by
  simp only [State.host, storeFault_hosts]
@[simp] theorem storeFault_atnOf (c : FaultCause) (x : HostId) : (storeFault c s).atnOf x = s.atnOf x := by
  simp only [State.atnOf, storeFault_atn]
@[simp] theorem storeFault_waitingClaim (c : FaultCause) (x : HostId) : (storeFault c s).waitingClaim x = s.waitingClaim x := by
  simp only [State.waitingClaim, storeFault_waiting]
@[simp] theorem storeFault_slot (c : FaultCause) (x : SlotId) : (storeFault c s).slot x = s.slot x := by
  simp only [State.slot, storeFault_slots]
@[simp] theorem storeFault_port (c : FaultCause) (x : HostId) : (storeFault c s).port x = s.port x := by
  simp only [State.port, storeFault_ports]
@[simp] theorem storeFault_attached (c : FaultCause) (x : HostId) : (storeFault c s).attached x = s.attached x := by
  simp only [State.attached, State.host, storeFault_hosts]
@[simp] theorem storeFault_now (c : FaultCause) : (storeFault c s).now = s.now := by
  simp only [State.now, storeFault_clock]
@[simp] theorem storeFault_liveTickets (c : FaultCause) : (storeFault c s).liveTickets = s.liveTickets := by
  simp only [State.liveTickets, State.slot, storeFault_slots]

/-- An edge occurrence changes sources alone. -/
theorem edgeOccurrence_frame (i : SourceId) :
    (edgeOccurrence i s).1 =
      { s with
        sources := ((edgeOccurrence i s).1).sources } := by
  unfold edgeOccurrence
  dsimp only
  split <;> rfl
@[simp] theorem edgeOccurrence_lines (i : SourceId) : ((edgeOccurrence i s).1).lines = s.lines := by
  rw [edgeOccurrence_frame s i]
@[simp] theorem edgeOccurrence_sampled (i : SourceId) : ((edgeOccurrence i s).1).sampled = s.sampled := by
  rw [edgeOccurrence_frame s i]
@[simp] theorem edgeOccurrence_lanes (i : SourceId) : ((edgeOccurrence i s).1).lanes = s.lanes := by
  rw [edgeOccurrence_frame s i]
@[simp] theorem edgeOccurrence_hosts (i : SourceId) : ((edgeOccurrence i s).1).hosts = s.hosts := by
  rw [edgeOccurrence_frame s i]
@[simp] theorem edgeOccurrence_atn (i : SourceId) : ((edgeOccurrence i s).1).atn = s.atn := by
  rw [edgeOccurrence_frame s i]
@[simp] theorem edgeOccurrence_waiting (i : SourceId) : ((edgeOccurrence i s).1).waiting = s.waiting := by
  rw [edgeOccurrence_frame s i]
@[simp] theorem edgeOccurrence_rotation (i : SourceId) : ((edgeOccurrence i s).1).rotation = s.rotation := by
  rw [edgeOccurrence_frame s i]
@[simp] theorem edgeOccurrence_slots (i : SourceId) : ((edgeOccurrence i s).1).slots = s.slots := by
  rw [edgeOccurrence_frame s i]
@[simp] theorem edgeOccurrence_edit (i : SourceId) : ((edgeOccurrence i s).1).edit = s.edit := by
  rw [edgeOccurrence_frame s i]
@[simp] theorem edgeOccurrence_faults (i : SourceId) : ((edgeOccurrence i s).1).faults = s.faults := by
  rw [edgeOccurrence_frame s i]
@[simp] theorem edgeOccurrence_ports (i : SourceId) : ((edgeOccurrence i s).1).ports = s.ports := by
  rw [edgeOccurrence_frame s i]
@[simp] theorem edgeOccurrence_clock (i : SourceId) : ((edgeOccurrence i s).1).clock = s.clock := by
  rw [edgeOccurrence_frame s i]
@[simp] theorem edgeOccurrence_drawn (i : SourceId) : ((edgeOccurrence i s).1).drawn = s.drawn := by
  rw [edgeOccurrence_frame s i]
@[simp] theorem edgeOccurrence_pending (i : SourceId) : ((edgeOccurrence i s).1).pending = s.pending := by
  rw [edgeOccurrence_frame s i]
@[simp] theorem edgeOccurrence_line (i : SourceId) (x : LineId) : ((edgeOccurrence i s).1).line x = s.line x := by
  simp only [State.line, edgeOccurrence_lines]
@[simp] theorem edgeOccurrence_creditLimit (i : SourceId) (x : LaneId) : ((edgeOccurrence i s).1).creditLimit x = s.creditLimit x := by
  simp only [State.creditLimit, edgeOccurrence_lanes]
@[simp] theorem edgeOccurrence_host (i : SourceId) (x : HostId) : ((edgeOccurrence i s).1).host x = s.host x := by
  simp only [State.host, edgeOccurrence_hosts]
@[simp] theorem edgeOccurrence_atnOf (i : SourceId) (x : HostId) : ((edgeOccurrence i s).1).atnOf x = s.atnOf x := by
  simp only [State.atnOf, edgeOccurrence_atn]
@[simp] theorem edgeOccurrence_waitingClaim (i : SourceId) (x : HostId) : ((edgeOccurrence i s).1).waitingClaim x = s.waitingClaim x := by
  simp only [State.waitingClaim, edgeOccurrence_waiting]
@[simp] theorem edgeOccurrence_slot (i : SourceId) (x : SlotId) : ((edgeOccurrence i s).1).slot x = s.slot x := by
  simp only [State.slot, edgeOccurrence_slots]
@[simp] theorem edgeOccurrence_port (i : SourceId) (x : HostId) : ((edgeOccurrence i s).1).port x = s.port x := by
  simp only [State.port, edgeOccurrence_ports]
@[simp] theorem edgeOccurrence_attached (i : SourceId) (x : HostId) : ((edgeOccurrence i s).1).attached x = s.attached x := by
  simp only [State.attached, State.host, edgeOccurrence_hosts]
@[simp] theorem edgeOccurrence_now (i : SourceId) : ((edgeOccurrence i s).1).now = s.now := by
  simp only [State.now, edgeOccurrence_clock]
@[simp] theorem edgeOccurrence_liveTickets (i : SourceId) : ((edgeOccurrence i s).1).liveTickets = s.liveTickets := by
  simp only [State.liveTickets, State.slot, edgeOccurrence_slots]

/-- The report of an edge to one source changes sources alone. -/
theorem reactToEdge_frame (b : Bool) (i : SourceId) :
    (reactToEdge b i s).1 =
      { s with
        sources := ((reactToEdge b i s).1).sources } := by
  unfold reactToEdge
  dsimp only
  split
  · split <;> (try split) <;>
      first
      | rfl
      | exact edgeOccurrence_frame s i
      | exact levelCheck_frame s i
  · rfl
@[simp] theorem reactToEdge_lines (b : Bool) (i : SourceId) : ((reactToEdge b i s).1).lines = s.lines := by
  rw [reactToEdge_frame s b i]
@[simp] theorem reactToEdge_sampled (b : Bool) (i : SourceId) : ((reactToEdge b i s).1).sampled = s.sampled := by
  rw [reactToEdge_frame s b i]
@[simp] theorem reactToEdge_lanes (b : Bool) (i : SourceId) : ((reactToEdge b i s).1).lanes = s.lanes := by
  rw [reactToEdge_frame s b i]
@[simp] theorem reactToEdge_hosts (b : Bool) (i : SourceId) : ((reactToEdge b i s).1).hosts = s.hosts := by
  rw [reactToEdge_frame s b i]
@[simp] theorem reactToEdge_atn (b : Bool) (i : SourceId) : ((reactToEdge b i s).1).atn = s.atn := by
  rw [reactToEdge_frame s b i]
@[simp] theorem reactToEdge_waiting (b : Bool) (i : SourceId) : ((reactToEdge b i s).1).waiting = s.waiting := by
  rw [reactToEdge_frame s b i]
@[simp] theorem reactToEdge_rotation (b : Bool) (i : SourceId) : ((reactToEdge b i s).1).rotation = s.rotation := by
  rw [reactToEdge_frame s b i]
@[simp] theorem reactToEdge_slots (b : Bool) (i : SourceId) : ((reactToEdge b i s).1).slots = s.slots := by
  rw [reactToEdge_frame s b i]
@[simp] theorem reactToEdge_edit (b : Bool) (i : SourceId) : ((reactToEdge b i s).1).edit = s.edit := by
  rw [reactToEdge_frame s b i]
@[simp] theorem reactToEdge_faults (b : Bool) (i : SourceId) : ((reactToEdge b i s).1).faults = s.faults := by
  rw [reactToEdge_frame s b i]
@[simp] theorem reactToEdge_ports (b : Bool) (i : SourceId) : ((reactToEdge b i s).1).ports = s.ports := by
  rw [reactToEdge_frame s b i]
@[simp] theorem reactToEdge_clock (b : Bool) (i : SourceId) : ((reactToEdge b i s).1).clock = s.clock := by
  rw [reactToEdge_frame s b i]
@[simp] theorem reactToEdge_drawn (b : Bool) (i : SourceId) : ((reactToEdge b i s).1).drawn = s.drawn := by
  rw [reactToEdge_frame s b i]
@[simp] theorem reactToEdge_pending (b : Bool) (i : SourceId) : ((reactToEdge b i s).1).pending = s.pending := by
  rw [reactToEdge_frame s b i]
@[simp] theorem reactToEdge_line (b : Bool) (i : SourceId) (x : LineId) : ((reactToEdge b i s).1).line x = s.line x := by
  simp only [State.line, reactToEdge_lines]
@[simp] theorem reactToEdge_creditLimit (b : Bool) (i : SourceId) (x : LaneId) : ((reactToEdge b i s).1).creditLimit x = s.creditLimit x := by
  simp only [State.creditLimit, reactToEdge_lanes]
@[simp] theorem reactToEdge_host (b : Bool) (i : SourceId) (x : HostId) : ((reactToEdge b i s).1).host x = s.host x := by
  simp only [State.host, reactToEdge_hosts]
@[simp] theorem reactToEdge_atnOf (b : Bool) (i : SourceId) (x : HostId) : ((reactToEdge b i s).1).atnOf x = s.atnOf x := by
  simp only [State.atnOf, reactToEdge_atn]
@[simp] theorem reactToEdge_waitingClaim (b : Bool) (i : SourceId) (x : HostId) : ((reactToEdge b i s).1).waitingClaim x = s.waitingClaim x := by
  simp only [State.waitingClaim, reactToEdge_waiting]
@[simp] theorem reactToEdge_slot (b : Bool) (i : SourceId) (x : SlotId) : ((reactToEdge b i s).1).slot x = s.slot x := by
  simp only [State.slot, reactToEdge_slots]
@[simp] theorem reactToEdge_port (b : Bool) (i : SourceId) (x : HostId) : ((reactToEdge b i s).1).port x = s.port x := by
  simp only [State.port, reactToEdge_ports]
@[simp] theorem reactToEdge_attached (b : Bool) (i : SourceId) (x : HostId) : ((reactToEdge b i s).1).attached x = s.attached x := by
  simp only [State.attached, State.host, reactToEdge_hosts]
@[simp] theorem reactToEdge_now (b : Bool) (i : SourceId) : ((reactToEdge b i s).1).now = s.now := by
  simp only [State.now, reactToEdge_clock]
@[simp] theorem reactToEdge_liveTickets (b : Bool) (i : SourceId) : ((reactToEdge b i s).1).liveTickets = s.liveTickets := by
  simp only [State.liveTickets, State.slot, reactToEdge_slots]

/-- The report of an edge to a list of sources changes sources alone. -/
theorem reportTo_frame (b : Bool) (l : List SourceId) :
    (reportTo b l s).1 =
      { s with
        sources := ((reportTo b l s).1).sources } := by
  induction l generalizing s with
  | nil => rfl
  | cons i rest ih =>
    simp only [reportTo]
    rw [ih, reactToEdge_frame]
@[simp] theorem reportTo_lines (b : Bool) (l : List SourceId) : ((reportTo b l s).1).lines = s.lines := by
  rw [reportTo_frame s b l]
@[simp] theorem reportTo_sampled (b : Bool) (l : List SourceId) : ((reportTo b l s).1).sampled = s.sampled := by
  rw [reportTo_frame s b l]
@[simp] theorem reportTo_lanes (b : Bool) (l : List SourceId) : ((reportTo b l s).1).lanes = s.lanes := by
  rw [reportTo_frame s b l]
@[simp] theorem reportTo_hosts (b : Bool) (l : List SourceId) : ((reportTo b l s).1).hosts = s.hosts := by
  rw [reportTo_frame s b l]
@[simp] theorem reportTo_atn (b : Bool) (l : List SourceId) : ((reportTo b l s).1).atn = s.atn := by
  rw [reportTo_frame s b l]
@[simp] theorem reportTo_waiting (b : Bool) (l : List SourceId) : ((reportTo b l s).1).waiting = s.waiting := by
  rw [reportTo_frame s b l]
@[simp] theorem reportTo_rotation (b : Bool) (l : List SourceId) : ((reportTo b l s).1).rotation = s.rotation := by
  rw [reportTo_frame s b l]
@[simp] theorem reportTo_slots (b : Bool) (l : List SourceId) : ((reportTo b l s).1).slots = s.slots := by
  rw [reportTo_frame s b l]
@[simp] theorem reportTo_edit (b : Bool) (l : List SourceId) : ((reportTo b l s).1).edit = s.edit := by
  rw [reportTo_frame s b l]
@[simp] theorem reportTo_faults (b : Bool) (l : List SourceId) : ((reportTo b l s).1).faults = s.faults := by
  rw [reportTo_frame s b l]
@[simp] theorem reportTo_ports (b : Bool) (l : List SourceId) : ((reportTo b l s).1).ports = s.ports := by
  rw [reportTo_frame s b l]
@[simp] theorem reportTo_clock (b : Bool) (l : List SourceId) : ((reportTo b l s).1).clock = s.clock := by
  rw [reportTo_frame s b l]
@[simp] theorem reportTo_drawn (b : Bool) (l : List SourceId) : ((reportTo b l s).1).drawn = s.drawn := by
  rw [reportTo_frame s b l]
@[simp] theorem reportTo_pending (b : Bool) (l : List SourceId) : ((reportTo b l s).1).pending = s.pending := by
  rw [reportTo_frame s b l]
@[simp] theorem reportTo_line (b : Bool) (l : List SourceId) (x : LineId) : ((reportTo b l s).1).line x = s.line x := by
  simp only [State.line, reportTo_lines]
@[simp] theorem reportTo_creditLimit (b : Bool) (l : List SourceId) (x : LaneId) : ((reportTo b l s).1).creditLimit x = s.creditLimit x := by
  simp only [State.creditLimit, reportTo_lanes]
@[simp] theorem reportTo_host (b : Bool) (l : List SourceId) (x : HostId) : ((reportTo b l s).1).host x = s.host x := by
  simp only [State.host, reportTo_hosts]
@[simp] theorem reportTo_atnOf (b : Bool) (l : List SourceId) (x : HostId) : ((reportTo b l s).1).atnOf x = s.atnOf x := by
  simp only [State.atnOf, reportTo_atn]
@[simp] theorem reportTo_waitingClaim (b : Bool) (l : List SourceId) (x : HostId) : ((reportTo b l s).1).waitingClaim x = s.waitingClaim x := by
  simp only [State.waitingClaim, reportTo_waiting]
@[simp] theorem reportTo_slot (b : Bool) (l : List SourceId) (x : SlotId) : ((reportTo b l s).1).slot x = s.slot x := by
  simp only [State.slot, reportTo_slots]
@[simp] theorem reportTo_port (b : Bool) (l : List SourceId) (x : HostId) : ((reportTo b l s).1).port x = s.port x := by
  simp only [State.port, reportTo_ports]
@[simp] theorem reportTo_attached (b : Bool) (l : List SourceId) (x : HostId) : ((reportTo b l s).1).attached x = s.attached x := by
  simp only [State.attached, State.host, reportTo_hosts]
@[simp] theorem reportTo_now (b : Bool) (l : List SourceId) : ((reportTo b l s).1).now = s.now := by
  simp only [State.now, reportTo_clock]
@[simp] theorem reportTo_liveTickets (b : Bool) (l : List SourceId) : ((reportTo b l s).1).liveTickets = s.liveTickets := by
  simp only [State.liveTickets, State.slot, reportTo_slots]

/-- The store of overflow records changes sources, faults alone. -/
theorem storeOverflows_frame (l : List SourceId) :
    storeOverflows l s =
      { s with
        sources := (storeOverflows l s).sources
        faults := (storeOverflows l s).faults } := by
  induction l generalizing s with
  | nil => rfl
  | cons i rest ih =>
    simp only [storeOverflows]
    rw [ih, storeFault_frame]
@[simp] theorem storeOverflows_lines (l : List SourceId) : (storeOverflows l s).lines = s.lines := by
  rw [storeOverflows_frame s l]
@[simp] theorem storeOverflows_sampled (l : List SourceId) : (storeOverflows l s).sampled = s.sampled := by
  rw [storeOverflows_frame s l]
@[simp] theorem storeOverflows_lanes (l : List SourceId) : (storeOverflows l s).lanes = s.lanes := by
  rw [storeOverflows_frame s l]
@[simp] theorem storeOverflows_hosts (l : List SourceId) : (storeOverflows l s).hosts = s.hosts := by
  rw [storeOverflows_frame s l]
@[simp] theorem storeOverflows_atn (l : List SourceId) : (storeOverflows l s).atn = s.atn := by
  rw [storeOverflows_frame s l]
@[simp] theorem storeOverflows_waiting (l : List SourceId) : (storeOverflows l s).waiting = s.waiting := by
  rw [storeOverflows_frame s l]
@[simp] theorem storeOverflows_rotation (l : List SourceId) : (storeOverflows l s).rotation = s.rotation := by
  rw [storeOverflows_frame s l]
@[simp] theorem storeOverflows_slots (l : List SourceId) : (storeOverflows l s).slots = s.slots := by
  rw [storeOverflows_frame s l]
@[simp] theorem storeOverflows_edit (l : List SourceId) : (storeOverflows l s).edit = s.edit := by
  rw [storeOverflows_frame s l]
@[simp] theorem storeOverflows_ports (l : List SourceId) : (storeOverflows l s).ports = s.ports := by
  rw [storeOverflows_frame s l]
@[simp] theorem storeOverflows_clock (l : List SourceId) : (storeOverflows l s).clock = s.clock := by
  rw [storeOverflows_frame s l]
@[simp] theorem storeOverflows_drawn (l : List SourceId) : (storeOverflows l s).drawn = s.drawn := by
  rw [storeOverflows_frame s l]
@[simp] theorem storeOverflows_pending (l : List SourceId) : (storeOverflows l s).pending = s.pending := by
  rw [storeOverflows_frame s l]
@[simp] theorem storeOverflows_line (l : List SourceId) (x : LineId) : (storeOverflows l s).line x = s.line x := by
  simp only [State.line, storeOverflows_lines]
@[simp] theorem storeOverflows_creditLimit (l : List SourceId) (x : LaneId) : (storeOverflows l s).creditLimit x = s.creditLimit x := by
  simp only [State.creditLimit, storeOverflows_lanes]
@[simp] theorem storeOverflows_host (l : List SourceId) (x : HostId) : (storeOverflows l s).host x = s.host x := by
  simp only [State.host, storeOverflows_hosts]
@[simp] theorem storeOverflows_atnOf (l : List SourceId) (x : HostId) : (storeOverflows l s).atnOf x = s.atnOf x := by
  simp only [State.atnOf, storeOverflows_atn]
@[simp] theorem storeOverflows_waitingClaim (l : List SourceId) (x : HostId) : (storeOverflows l s).waitingClaim x = s.waitingClaim x := by
  simp only [State.waitingClaim, storeOverflows_waiting]
@[simp] theorem storeOverflows_slot (l : List SourceId) (x : SlotId) : (storeOverflows l s).slot x = s.slot x := by
  simp only [State.slot, storeOverflows_slots]
@[simp] theorem storeOverflows_port (l : List SourceId) (x : HostId) : (storeOverflows l s).port x = s.port x := by
  simp only [State.port, storeOverflows_ports]
@[simp] theorem storeOverflows_attached (l : List SourceId) (x : HostId) : (storeOverflows l s).attached x = s.attached x := by
  simp only [State.attached, State.host, storeOverflows_hosts]
@[simp] theorem storeOverflows_now (l : List SourceId) : (storeOverflows l s).now = s.now := by
  simp only [State.now, storeOverflows_clock]
@[simp] theorem storeOverflows_liveTickets (l : List SourceId) : (storeOverflows l s).liveTickets = s.liveTickets := by
  simp only [State.liveTickets, State.slot, storeOverflows_slots]

/-- The report of an edge changes sources, faults, drawn alone. -/
theorem reportEdge_frame (l : LineId) (b : Bool) :
    reportEdge l b s =
      { s with
        sources := (reportEdge l b s).sources
        faults := (reportEdge l b s).faults
        drawn := (reportEdge l b s).drawn } := by
  simp only [reportEdge]
  rw [storeOverflows_frame, reportTo_frame]
  rfl
@[simp] theorem reportEdge_lines (l : LineId) (b : Bool) : (reportEdge l b s).lines = s.lines := by
  rw [reportEdge_frame s l b]
@[simp] theorem reportEdge_sampled (l : LineId) (b : Bool) : (reportEdge l b s).sampled = s.sampled := by
  rw [reportEdge_frame s l b]
@[simp] theorem reportEdge_lanes (l : LineId) (b : Bool) : (reportEdge l b s).lanes = s.lanes := by
  rw [reportEdge_frame s l b]
@[simp] theorem reportEdge_hosts (l : LineId) (b : Bool) : (reportEdge l b s).hosts = s.hosts := by
  rw [reportEdge_frame s l b]
@[simp] theorem reportEdge_atn (l : LineId) (b : Bool) : (reportEdge l b s).atn = s.atn := by
  rw [reportEdge_frame s l b]
@[simp] theorem reportEdge_waiting (l : LineId) (b : Bool) : (reportEdge l b s).waiting = s.waiting := by
  rw [reportEdge_frame s l b]
@[simp] theorem reportEdge_rotation (l : LineId) (b : Bool) : (reportEdge l b s).rotation = s.rotation := by
  rw [reportEdge_frame s l b]
@[simp] theorem reportEdge_slots (l : LineId) (b : Bool) : (reportEdge l b s).slots = s.slots := by
  rw [reportEdge_frame s l b]
@[simp] theorem reportEdge_edit (l : LineId) (b : Bool) : (reportEdge l b s).edit = s.edit := by
  rw [reportEdge_frame s l b]
@[simp] theorem reportEdge_ports (l : LineId) (b : Bool) : (reportEdge l b s).ports = s.ports := by
  rw [reportEdge_frame s l b]
@[simp] theorem reportEdge_clock (l : LineId) (b : Bool) : (reportEdge l b s).clock = s.clock := by
  rw [reportEdge_frame s l b]
@[simp] theorem reportEdge_pending (l : LineId) (b : Bool) : (reportEdge l b s).pending = s.pending := by
  rw [reportEdge_frame s l b]
@[simp] theorem reportEdge_line (l : LineId) (b : Bool) (x : LineId) : (reportEdge l b s).line x = s.line x := by
  simp only [State.line, reportEdge_lines]
@[simp] theorem reportEdge_creditLimit (l : LineId) (b : Bool) (x : LaneId) : (reportEdge l b s).creditLimit x = s.creditLimit x := by
  simp only [State.creditLimit, reportEdge_lanes]
@[simp] theorem reportEdge_host (l : LineId) (b : Bool) (x : HostId) : (reportEdge l b s).host x = s.host x := by
  simp only [State.host, reportEdge_hosts]
@[simp] theorem reportEdge_atnOf (l : LineId) (b : Bool) (x : HostId) : (reportEdge l b s).atnOf x = s.atnOf x := by
  simp only [State.atnOf, reportEdge_atn]
@[simp] theorem reportEdge_waitingClaim (l : LineId) (b : Bool) (x : HostId) : (reportEdge l b s).waitingClaim x = s.waitingClaim x := by
  simp only [State.waitingClaim, reportEdge_waiting]
@[simp] theorem reportEdge_slot (l : LineId) (b : Bool) (x : SlotId) : (reportEdge l b s).slot x = s.slot x := by
  simp only [State.slot, reportEdge_slots]
@[simp] theorem reportEdge_port (l : LineId) (b : Bool) (x : HostId) : (reportEdge l b s).port x = s.port x := by
  simp only [State.port, reportEdge_ports]
@[simp] theorem reportEdge_attached (l : LineId) (b : Bool) (x : HostId) : (reportEdge l b s).attached x = s.attached x := by
  simp only [State.attached, State.host, reportEdge_hosts]
@[simp] theorem reportEdge_now (l : LineId) (b : Bool) : (reportEdge l b s).now = s.now := by
  simp only [State.now, reportEdge_clock]
@[simp] theorem reportEdge_liveTickets (l : LineId) (b : Bool) : (reportEdge l b s).liveTickets = s.liveTickets := by
  simp only [State.liveTickets, State.slot, reportEdge_slots]

/-- The recomputation of ATN changes atn alone. -/
theorem recomputeAtn_frame :
    recomputeAtn s =
      { s with
        atn := (recomputeAtn s).atn } := rfl
@[simp] theorem recomputeAtn_sources : (recomputeAtn s).sources = s.sources := by
  rw [recomputeAtn_frame s]
@[simp] theorem recomputeAtn_lines : (recomputeAtn s).lines = s.lines := by
  rw [recomputeAtn_frame s]
@[simp] theorem recomputeAtn_sampled : (recomputeAtn s).sampled = s.sampled := by
  rw [recomputeAtn_frame s]
@[simp] theorem recomputeAtn_lanes : (recomputeAtn s).lanes = s.lanes := by
  rw [recomputeAtn_frame s]
@[simp] theorem recomputeAtn_hosts : (recomputeAtn s).hosts = s.hosts := by
  rw [recomputeAtn_frame s]
@[simp] theorem recomputeAtn_waiting : (recomputeAtn s).waiting = s.waiting := by
  rw [recomputeAtn_frame s]
@[simp] theorem recomputeAtn_rotation : (recomputeAtn s).rotation = s.rotation := by
  rw [recomputeAtn_frame s]
@[simp] theorem recomputeAtn_slots : (recomputeAtn s).slots = s.slots := by
  rw [recomputeAtn_frame s]
@[simp] theorem recomputeAtn_edit : (recomputeAtn s).edit = s.edit := by
  rw [recomputeAtn_frame s]
@[simp] theorem recomputeAtn_faults : (recomputeAtn s).faults = s.faults := by
  rw [recomputeAtn_frame s]
@[simp] theorem recomputeAtn_ports : (recomputeAtn s).ports = s.ports := by
  rw [recomputeAtn_frame s]
@[simp] theorem recomputeAtn_clock : (recomputeAtn s).clock = s.clock := by
  rw [recomputeAtn_frame s]
@[simp] theorem recomputeAtn_drawn : (recomputeAtn s).drawn = s.drawn := by
  rw [recomputeAtn_frame s]
@[simp] theorem recomputeAtn_pending : (recomputeAtn s).pending = s.pending := by
  rw [recomputeAtn_frame s]
@[simp] theorem recomputeAtn_source (x : SourceId) : (recomputeAtn s).source x = s.source x := by
  simp only [State.source, recomputeAtn_sources]
@[simp] theorem recomputeAtn_line (x : LineId) : (recomputeAtn s).line x = s.line x := by
  simp only [State.line, recomputeAtn_lines]
@[simp] theorem recomputeAtn_creditLimit (x : LaneId) : (recomputeAtn s).creditLimit x = s.creditLimit x := by
  simp only [State.creditLimit, recomputeAtn_lanes]
@[simp] theorem recomputeAtn_host (x : HostId) : (recomputeAtn s).host x = s.host x := by
  simp only [State.host, recomputeAtn_hosts]
@[simp] theorem recomputeAtn_waitingClaim (x : HostId) : (recomputeAtn s).waitingClaim x = s.waitingClaim x := by
  simp only [State.waitingClaim, recomputeAtn_waiting]
@[simp] theorem recomputeAtn_slot (x : SlotId) : (recomputeAtn s).slot x = s.slot x := by
  simp only [State.slot, recomputeAtn_slots]
@[simp] theorem recomputeAtn_port (x : HostId) : (recomputeAtn s).port x = s.port x := by
  simp only [State.port, recomputeAtn_ports]
@[simp] theorem recomputeAtn_attached (x : HostId) : (recomputeAtn s).attached x = s.attached x := by
  simp only [State.attached, State.host, recomputeAtn_hosts]
@[simp] theorem recomputeAtn_now : (recomputeAtn s).now = s.now := by
  simp only [State.now, recomputeAtn_clock]
@[simp] theorem recomputeAtn_liveTickets : (recomputeAtn s).liveTickets = s.liveTickets := by
  simp only [State.liveTickets, State.slot, recomputeAtn_slots]

/-- The restart of the idle deadline changes edit alone. -/
theorem touchIdle_frame (h : HostId) :
    touchIdle h s =
      { s with
        edit := (touchIdle h s).edit } := by
  unfold touchIdle
  split <;> rfl
@[simp] theorem touchIdle_sources (h : HostId) : (touchIdle h s).sources = s.sources := by
  rw [touchIdle_frame s h]
@[simp] theorem touchIdle_lines (h : HostId) : (touchIdle h s).lines = s.lines := by
  rw [touchIdle_frame s h]
@[simp] theorem touchIdle_sampled (h : HostId) : (touchIdle h s).sampled = s.sampled := by
  rw [touchIdle_frame s h]
@[simp] theorem touchIdle_lanes (h : HostId) : (touchIdle h s).lanes = s.lanes := by
  rw [touchIdle_frame s h]
@[simp] theorem touchIdle_hosts (h : HostId) : (touchIdle h s).hosts = s.hosts := by
  rw [touchIdle_frame s h]
@[simp] theorem touchIdle_atn (h : HostId) : (touchIdle h s).atn = s.atn := by
  rw [touchIdle_frame s h]
@[simp] theorem touchIdle_waiting (h : HostId) : (touchIdle h s).waiting = s.waiting := by
  rw [touchIdle_frame s h]
@[simp] theorem touchIdle_rotation (h : HostId) : (touchIdle h s).rotation = s.rotation := by
  rw [touchIdle_frame s h]
@[simp] theorem touchIdle_slots (h : HostId) : (touchIdle h s).slots = s.slots := by
  rw [touchIdle_frame s h]
@[simp] theorem touchIdle_faults (h : HostId) : (touchIdle h s).faults = s.faults := by
  rw [touchIdle_frame s h]
@[simp] theorem touchIdle_ports (h : HostId) : (touchIdle h s).ports = s.ports := by
  rw [touchIdle_frame s h]
@[simp] theorem touchIdle_clock (h : HostId) : (touchIdle h s).clock = s.clock := by
  rw [touchIdle_frame s h]
@[simp] theorem touchIdle_drawn (h : HostId) : (touchIdle h s).drawn = s.drawn := by
  rw [touchIdle_frame s h]
@[simp] theorem touchIdle_pending (h : HostId) : (touchIdle h s).pending = s.pending := by
  rw [touchIdle_frame s h]
@[simp] theorem touchIdle_source (h : HostId) (x : SourceId) : (touchIdle h s).source x = s.source x := by
  simp only [State.source, touchIdle_sources]
@[simp] theorem touchIdle_line (h : HostId) (x : LineId) : (touchIdle h s).line x = s.line x := by
  simp only [State.line, touchIdle_lines]
@[simp] theorem touchIdle_creditLimit (h : HostId) (x : LaneId) : (touchIdle h s).creditLimit x = s.creditLimit x := by
  simp only [State.creditLimit, touchIdle_lanes]
@[simp] theorem touchIdle_host (h : HostId) (x : HostId) : (touchIdle h s).host x = s.host x := by
  simp only [State.host, touchIdle_hosts]
@[simp] theorem touchIdle_atnOf (h : HostId) (x : HostId) : (touchIdle h s).atnOf x = s.atnOf x := by
  simp only [State.atnOf, touchIdle_atn]
@[simp] theorem touchIdle_waitingClaim (h : HostId) (x : HostId) : (touchIdle h s).waitingClaim x = s.waitingClaim x := by
  simp only [State.waitingClaim, touchIdle_waiting]
@[simp] theorem touchIdle_slot (h : HostId) (x : SlotId) : (touchIdle h s).slot x = s.slot x := by
  simp only [State.slot, touchIdle_slots]
@[simp] theorem touchIdle_port (h : HostId) (x : HostId) : (touchIdle h s).port x = s.port x := by
  simp only [State.port, touchIdle_ports]
@[simp] theorem touchIdle_attached (h : HostId) (x : HostId) : (touchIdle h s).attached x = s.attached x := by
  simp only [State.attached, State.host, touchIdle_hosts]
@[simp] theorem touchIdle_now (h : HostId) : (touchIdle h s).now = s.now := by
  simp only [State.now, touchIdle_clock]
@[simp] theorem touchIdle_liveTickets (h : HostId) : (touchIdle h s).liveTickets = s.liveTickets := by
  simp only [State.liveTickets, State.slot, touchIdle_slots]

/-- The forming of an answer changes ports alone. -/
theorem formAnswer_frame (h : HostId) (a : Answer) :
    formAnswer h a s =
      { s with
        ports := (formAnswer h a s).ports } := rfl
@[simp] theorem formAnswer_sources (h : HostId) (a : Answer) : (formAnswer h a s).sources = s.sources := by
  rw [formAnswer_frame s h a]
@[simp] theorem formAnswer_lines (h : HostId) (a : Answer) : (formAnswer h a s).lines = s.lines := by
  rw [formAnswer_frame s h a]
@[simp] theorem formAnswer_sampled (h : HostId) (a : Answer) : (formAnswer h a s).sampled = s.sampled := by
  rw [formAnswer_frame s h a]
@[simp] theorem formAnswer_lanes (h : HostId) (a : Answer) : (formAnswer h a s).lanes = s.lanes := by
  rw [formAnswer_frame s h a]
@[simp] theorem formAnswer_hosts (h : HostId) (a : Answer) : (formAnswer h a s).hosts = s.hosts := by
  rw [formAnswer_frame s h a]
@[simp] theorem formAnswer_atn (h : HostId) (a : Answer) : (formAnswer h a s).atn = s.atn := by
  rw [formAnswer_frame s h a]
@[simp] theorem formAnswer_waiting (h : HostId) (a : Answer) : (formAnswer h a s).waiting = s.waiting := by
  rw [formAnswer_frame s h a]
@[simp] theorem formAnswer_rotation (h : HostId) (a : Answer) : (formAnswer h a s).rotation = s.rotation := by
  rw [formAnswer_frame s h a]
@[simp] theorem formAnswer_slots (h : HostId) (a : Answer) : (formAnswer h a s).slots = s.slots := by
  rw [formAnswer_frame s h a]
@[simp] theorem formAnswer_edit (h : HostId) (a : Answer) : (formAnswer h a s).edit = s.edit := by
  rw [formAnswer_frame s h a]
@[simp] theorem formAnswer_faults (h : HostId) (a : Answer) : (formAnswer h a s).faults = s.faults := by
  rw [formAnswer_frame s h a]
@[simp] theorem formAnswer_clock (h : HostId) (a : Answer) : (formAnswer h a s).clock = s.clock := by
  rw [formAnswer_frame s h a]
@[simp] theorem formAnswer_drawn (h : HostId) (a : Answer) : (formAnswer h a s).drawn = s.drawn := by
  rw [formAnswer_frame s h a]
@[simp] theorem formAnswer_pending (h : HostId) (a : Answer) : (formAnswer h a s).pending = s.pending := by
  rw [formAnswer_frame s h a]
@[simp] theorem formAnswer_source (h : HostId) (a : Answer) (x : SourceId) : (formAnswer h a s).source x = s.source x := by
  simp only [State.source, formAnswer_sources]
@[simp] theorem formAnswer_line (h : HostId) (a : Answer) (x : LineId) : (formAnswer h a s).line x = s.line x := by
  simp only [State.line, formAnswer_lines]
@[simp] theorem formAnswer_creditLimit (h : HostId) (a : Answer) (x : LaneId) : (formAnswer h a s).creditLimit x = s.creditLimit x := by
  simp only [State.creditLimit, formAnswer_lanes]
@[simp] theorem formAnswer_host (h : HostId) (a : Answer) (x : HostId) : (formAnswer h a s).host x = s.host x := by
  simp only [State.host, formAnswer_hosts]
@[simp] theorem formAnswer_atnOf (h : HostId) (a : Answer) (x : HostId) : (formAnswer h a s).atnOf x = s.atnOf x := by
  simp only [State.atnOf, formAnswer_atn]
@[simp] theorem formAnswer_waitingClaim (h : HostId) (a : Answer) (x : HostId) : (formAnswer h a s).waitingClaim x = s.waitingClaim x := by
  simp only [State.waitingClaim, formAnswer_waiting]
@[simp] theorem formAnswer_slot (h : HostId) (a : Answer) (x : SlotId) : (formAnswer h a s).slot x = s.slot x := by
  simp only [State.slot, formAnswer_slots]
@[simp] theorem formAnswer_attached (h : HostId) (a : Answer) (x : HostId) : (formAnswer h a s).attached x = s.attached x := by
  simp only [State.attached, State.host, formAnswer_hosts]
@[simp] theorem formAnswer_now (h : HostId) (a : Answer) : (formAnswer h a s).now = s.now := by
  simp only [State.now, formAnswer_clock]
@[simp] theorem formAnswer_liveTickets (h : HostId) (a : Answer) : (formAnswer h a s).liveTickets = s.liveTickets := by
  simp only [State.liveTickets, State.slot, formAnswer_slots]

/-- The end of an ignored window changes ports alone. -/
theorem ignoreWindow_frame (h : HostId) :
    ignoreWindow h s =
      { s with
        ports := (ignoreWindow h s).ports } := rfl
@[simp] theorem ignoreWindow_sources (h : HostId) : (ignoreWindow h s).sources = s.sources := by
  rw [ignoreWindow_frame s h]
@[simp] theorem ignoreWindow_lines (h : HostId) : (ignoreWindow h s).lines = s.lines := by
  rw [ignoreWindow_frame s h]
@[simp] theorem ignoreWindow_sampled (h : HostId) : (ignoreWindow h s).sampled = s.sampled := by
  rw [ignoreWindow_frame s h]
@[simp] theorem ignoreWindow_lanes (h : HostId) : (ignoreWindow h s).lanes = s.lanes := by
  rw [ignoreWindow_frame s h]
@[simp] theorem ignoreWindow_hosts (h : HostId) : (ignoreWindow h s).hosts = s.hosts := by
  rw [ignoreWindow_frame s h]
@[simp] theorem ignoreWindow_atn (h : HostId) : (ignoreWindow h s).atn = s.atn := by
  rw [ignoreWindow_frame s h]
@[simp] theorem ignoreWindow_waiting (h : HostId) : (ignoreWindow h s).waiting = s.waiting := by
  rw [ignoreWindow_frame s h]
@[simp] theorem ignoreWindow_rotation (h : HostId) : (ignoreWindow h s).rotation = s.rotation := by
  rw [ignoreWindow_frame s h]
@[simp] theorem ignoreWindow_slots (h : HostId) : (ignoreWindow h s).slots = s.slots := by
  rw [ignoreWindow_frame s h]
@[simp] theorem ignoreWindow_edit (h : HostId) : (ignoreWindow h s).edit = s.edit := by
  rw [ignoreWindow_frame s h]
@[simp] theorem ignoreWindow_faults (h : HostId) : (ignoreWindow h s).faults = s.faults := by
  rw [ignoreWindow_frame s h]
@[simp] theorem ignoreWindow_clock (h : HostId) : (ignoreWindow h s).clock = s.clock := by
  rw [ignoreWindow_frame s h]
@[simp] theorem ignoreWindow_drawn (h : HostId) : (ignoreWindow h s).drawn = s.drawn := by
  rw [ignoreWindow_frame s h]
@[simp] theorem ignoreWindow_pending (h : HostId) : (ignoreWindow h s).pending = s.pending := by
  rw [ignoreWindow_frame s h]
@[simp] theorem ignoreWindow_source (h : HostId) (x : SourceId) : (ignoreWindow h s).source x = s.source x := by
  simp only [State.source, ignoreWindow_sources]
@[simp] theorem ignoreWindow_line (h : HostId) (x : LineId) : (ignoreWindow h s).line x = s.line x := by
  simp only [State.line, ignoreWindow_lines]
@[simp] theorem ignoreWindow_creditLimit (h : HostId) (x : LaneId) : (ignoreWindow h s).creditLimit x = s.creditLimit x := by
  simp only [State.creditLimit, ignoreWindow_lanes]
@[simp] theorem ignoreWindow_host (h : HostId) (x : HostId) : (ignoreWindow h s).host x = s.host x := by
  simp only [State.host, ignoreWindow_hosts]
@[simp] theorem ignoreWindow_atnOf (h : HostId) (x : HostId) : (ignoreWindow h s).atnOf x = s.atnOf x := by
  simp only [State.atnOf, ignoreWindow_atn]
@[simp] theorem ignoreWindow_waitingClaim (h : HostId) (x : HostId) : (ignoreWindow h s).waitingClaim x = s.waitingClaim x := by
  simp only [State.waitingClaim, ignoreWindow_waiting]
@[simp] theorem ignoreWindow_slot (h : HostId) (x : SlotId) : (ignoreWindow h s).slot x = s.slot x := by
  simp only [State.slot, ignoreWindow_slots]
@[simp] theorem ignoreWindow_attached (h : HostId) (x : HostId) : (ignoreWindow h s).attached x = s.attached x := by
  simp only [State.attached, State.host, ignoreWindow_hosts]
@[simp] theorem ignoreWindow_now (h : HostId) : (ignoreWindow h s).now = s.now := by
  simp only [State.now, ignoreWindow_clock]
@[simp] theorem ignoreWindow_liveTickets (h : HostId) : (ignoreWindow h s).liveTickets = s.liveTickets := by
  simp only [State.liveTickets, State.slot, ignoreWindow_slots]

/-- A rejected frame changes ports alone. -/
theorem rejectFrame_frame (h : HostId) (l : List Byte) (a : Status) :
    rejectFrame h l a s =
      { s with
        ports := (rejectFrame h l a s).ports } := by
  unfold rejectFrame
  dsimp only
  split
  · rfl
  · split <;> rfl
@[simp] theorem rejectFrame_sources (h : HostId) (l : List Byte) (a : Status) : (rejectFrame h l a s).sources = s.sources := by
  rw [rejectFrame_frame s h l a]
@[simp] theorem rejectFrame_lines (h : HostId) (l : List Byte) (a : Status) : (rejectFrame h l a s).lines = s.lines := by
  rw [rejectFrame_frame s h l a]
@[simp] theorem rejectFrame_sampled (h : HostId) (l : List Byte) (a : Status) : (rejectFrame h l a s).sampled = s.sampled := by
  rw [rejectFrame_frame s h l a]
@[simp] theorem rejectFrame_lanes (h : HostId) (l : List Byte) (a : Status) : (rejectFrame h l a s).lanes = s.lanes := by
  rw [rejectFrame_frame s h l a]
@[simp] theorem rejectFrame_hosts (h : HostId) (l : List Byte) (a : Status) : (rejectFrame h l a s).hosts = s.hosts := by
  rw [rejectFrame_frame s h l a]
@[simp] theorem rejectFrame_atn (h : HostId) (l : List Byte) (a : Status) : (rejectFrame h l a s).atn = s.atn := by
  rw [rejectFrame_frame s h l a]
@[simp] theorem rejectFrame_waiting (h : HostId) (l : List Byte) (a : Status) : (rejectFrame h l a s).waiting = s.waiting := by
  rw [rejectFrame_frame s h l a]
@[simp] theorem rejectFrame_rotation (h : HostId) (l : List Byte) (a : Status) : (rejectFrame h l a s).rotation = s.rotation := by
  rw [rejectFrame_frame s h l a]
@[simp] theorem rejectFrame_slots (h : HostId) (l : List Byte) (a : Status) : (rejectFrame h l a s).slots = s.slots := by
  rw [rejectFrame_frame s h l a]
@[simp] theorem rejectFrame_edit (h : HostId) (l : List Byte) (a : Status) : (rejectFrame h l a s).edit = s.edit := by
  rw [rejectFrame_frame s h l a]
@[simp] theorem rejectFrame_faults (h : HostId) (l : List Byte) (a : Status) : (rejectFrame h l a s).faults = s.faults := by
  rw [rejectFrame_frame s h l a]
@[simp] theorem rejectFrame_clock (h : HostId) (l : List Byte) (a : Status) : (rejectFrame h l a s).clock = s.clock := by
  rw [rejectFrame_frame s h l a]
@[simp] theorem rejectFrame_drawn (h : HostId) (l : List Byte) (a : Status) : (rejectFrame h l a s).drawn = s.drawn := by
  rw [rejectFrame_frame s h l a]
@[simp] theorem rejectFrame_pending (h : HostId) (l : List Byte) (a : Status) : (rejectFrame h l a s).pending = s.pending := by
  rw [rejectFrame_frame s h l a]
@[simp] theorem rejectFrame_source (h : HostId) (l : List Byte) (a : Status) (x : SourceId) : (rejectFrame h l a s).source x = s.source x := by
  simp only [State.source, rejectFrame_sources]
@[simp] theorem rejectFrame_line (h : HostId) (l : List Byte) (a : Status) (x : LineId) : (rejectFrame h l a s).line x = s.line x := by
  simp only [State.line, rejectFrame_lines]
@[simp] theorem rejectFrame_creditLimit (h : HostId) (l : List Byte) (a : Status) (x : LaneId) : (rejectFrame h l a s).creditLimit x = s.creditLimit x := by
  simp only [State.creditLimit, rejectFrame_lanes]
@[simp] theorem rejectFrame_host (h : HostId) (l : List Byte) (a : Status) (x : HostId) : (rejectFrame h l a s).host x = s.host x := by
  simp only [State.host, rejectFrame_hosts]
@[simp] theorem rejectFrame_atnOf (h : HostId) (l : List Byte) (a : Status) (x : HostId) : (rejectFrame h l a s).atnOf x = s.atnOf x := by
  simp only [State.atnOf, rejectFrame_atn]
@[simp] theorem rejectFrame_waitingClaim (h : HostId) (l : List Byte) (a : Status) (x : HostId) : (rejectFrame h l a s).waitingClaim x = s.waitingClaim x := by
  simp only [State.waitingClaim, rejectFrame_waiting]
@[simp] theorem rejectFrame_slot (h : HostId) (l : List Byte) (a : Status) (x : SlotId) : (rejectFrame h l a s).slot x = s.slot x := by
  simp only [State.slot, rejectFrame_slots]
@[simp] theorem rejectFrame_attached (h : HostId) (l : List Byte) (a : Status) (x : HostId) : (rejectFrame h l a s).attached x = s.attached x := by
  simp only [State.attached, State.host, rejectFrame_hosts]
@[simp] theorem rejectFrame_now (h : HostId) (l : List Byte) (a : Status) : (rejectFrame h l a s).now = s.now := by
  simp only [State.now, rejectFrame_clock]
@[simp] theorem rejectFrame_liveTickets (h : HostId) (l : List Byte) (a : Status) : (rejectFrame h l a s).liveTickets = s.liveTickets := by
  simp only [State.liveTickets, State.slot, rejectFrame_slots]

/-- An incomplete frame changes ports alone. -/
theorem dropFrame_frame (h : HostId) (l : List Byte) :
    dropFrame h l s =
      { s with
        ports := (dropFrame h l s).ports } := by
  unfold dropFrame
  dsimp only
  split
  · rfl
  · split <;> rfl
@[simp] theorem dropFrame_sources (h : HostId) (l : List Byte) : (dropFrame h l s).sources = s.sources := by
  rw [dropFrame_frame s h l]
@[simp] theorem dropFrame_lines (h : HostId) (l : List Byte) : (dropFrame h l s).lines = s.lines := by
  rw [dropFrame_frame s h l]
@[simp] theorem dropFrame_sampled (h : HostId) (l : List Byte) : (dropFrame h l s).sampled = s.sampled := by
  rw [dropFrame_frame s h l]
@[simp] theorem dropFrame_lanes (h : HostId) (l : List Byte) : (dropFrame h l s).lanes = s.lanes := by
  rw [dropFrame_frame s h l]
@[simp] theorem dropFrame_hosts (h : HostId) (l : List Byte) : (dropFrame h l s).hosts = s.hosts := by
  rw [dropFrame_frame s h l]
@[simp] theorem dropFrame_atn (h : HostId) (l : List Byte) : (dropFrame h l s).atn = s.atn := by
  rw [dropFrame_frame s h l]
@[simp] theorem dropFrame_waiting (h : HostId) (l : List Byte) : (dropFrame h l s).waiting = s.waiting := by
  rw [dropFrame_frame s h l]
@[simp] theorem dropFrame_rotation (h : HostId) (l : List Byte) : (dropFrame h l s).rotation = s.rotation := by
  rw [dropFrame_frame s h l]
@[simp] theorem dropFrame_slots (h : HostId) (l : List Byte) : (dropFrame h l s).slots = s.slots := by
  rw [dropFrame_frame s h l]
@[simp] theorem dropFrame_edit (h : HostId) (l : List Byte) : (dropFrame h l s).edit = s.edit := by
  rw [dropFrame_frame s h l]
@[simp] theorem dropFrame_faults (h : HostId) (l : List Byte) : (dropFrame h l s).faults = s.faults := by
  rw [dropFrame_frame s h l]
@[simp] theorem dropFrame_clock (h : HostId) (l : List Byte) : (dropFrame h l s).clock = s.clock := by
  rw [dropFrame_frame s h l]
@[simp] theorem dropFrame_drawn (h : HostId) (l : List Byte) : (dropFrame h l s).drawn = s.drawn := by
  rw [dropFrame_frame s h l]
@[simp] theorem dropFrame_pending (h : HostId) (l : List Byte) : (dropFrame h l s).pending = s.pending := by
  rw [dropFrame_frame s h l]
@[simp] theorem dropFrame_source (h : HostId) (l : List Byte) (x : SourceId) : (dropFrame h l s).source x = s.source x := by
  simp only [State.source, dropFrame_sources]
@[simp] theorem dropFrame_line (h : HostId) (l : List Byte) (x : LineId) : (dropFrame h l s).line x = s.line x := by
  simp only [State.line, dropFrame_lines]
@[simp] theorem dropFrame_creditLimit (h : HostId) (l : List Byte) (x : LaneId) : (dropFrame h l s).creditLimit x = s.creditLimit x := by
  simp only [State.creditLimit, dropFrame_lanes]
@[simp] theorem dropFrame_host (h : HostId) (l : List Byte) (x : HostId) : (dropFrame h l s).host x = s.host x := by
  simp only [State.host, dropFrame_hosts]
@[simp] theorem dropFrame_atnOf (h : HostId) (l : List Byte) (x : HostId) : (dropFrame h l s).atnOf x = s.atnOf x := by
  simp only [State.atnOf, dropFrame_atn]
@[simp] theorem dropFrame_waitingClaim (h : HostId) (l : List Byte) (x : HostId) : (dropFrame h l s).waitingClaim x = s.waitingClaim x := by
  simp only [State.waitingClaim, dropFrame_waiting]
@[simp] theorem dropFrame_slot (h : HostId) (l : List Byte) (x : SlotId) : (dropFrame h l s).slot x = s.slot x := by
  simp only [State.slot, dropFrame_slots]
@[simp] theorem dropFrame_attached (h : HostId) (l : List Byte) (x : HostId) : (dropFrame h l s).attached x = s.attached x := by
  simp only [State.attached, State.host, dropFrame_hosts]
@[simp] theorem dropFrame_now (h : HostId) (l : List Byte) : (dropFrame h l s).now = s.now := by
  simp only [State.now, dropFrame_clock]
@[simp] theorem dropFrame_liveTickets (h : HostId) (l : List Byte) : (dropFrame h l s).liveTickets = s.liveTickets := by
  simp only [State.liveTickets, State.slot, dropFrame_slots]

/-- A window on a port that is WORKING changes ports alone. -/
theorem workingWindow_frame (h : HostId) (n : Nat) :
    workingWindow h n s =
      { s with
        ports := (workingWindow h n s).ports } := by
  unfold workingWindow
  split
  · rfl
  · split <;> rfl
@[simp] theorem workingWindow_sources (h : HostId) (n : Nat) : (workingWindow h n s).sources = s.sources := by
  rw [workingWindow_frame s h n]
@[simp] theorem workingWindow_lines (h : HostId) (n : Nat) : (workingWindow h n s).lines = s.lines := by
  rw [workingWindow_frame s h n]
@[simp] theorem workingWindow_sampled (h : HostId) (n : Nat) : (workingWindow h n s).sampled = s.sampled := by
  rw [workingWindow_frame s h n]
@[simp] theorem workingWindow_lanes (h : HostId) (n : Nat) : (workingWindow h n s).lanes = s.lanes := by
  rw [workingWindow_frame s h n]
@[simp] theorem workingWindow_hosts (h : HostId) (n : Nat) : (workingWindow h n s).hosts = s.hosts := by
  rw [workingWindow_frame s h n]
@[simp] theorem workingWindow_atn (h : HostId) (n : Nat) : (workingWindow h n s).atn = s.atn := by
  rw [workingWindow_frame s h n]
@[simp] theorem workingWindow_waiting (h : HostId) (n : Nat) : (workingWindow h n s).waiting = s.waiting := by
  rw [workingWindow_frame s h n]
@[simp] theorem workingWindow_rotation (h : HostId) (n : Nat) : (workingWindow h n s).rotation = s.rotation := by
  rw [workingWindow_frame s h n]
@[simp] theorem workingWindow_slots (h : HostId) (n : Nat) : (workingWindow h n s).slots = s.slots := by
  rw [workingWindow_frame s h n]
@[simp] theorem workingWindow_edit (h : HostId) (n : Nat) : (workingWindow h n s).edit = s.edit := by
  rw [workingWindow_frame s h n]
@[simp] theorem workingWindow_faults (h : HostId) (n : Nat) : (workingWindow h n s).faults = s.faults := by
  rw [workingWindow_frame s h n]
@[simp] theorem workingWindow_clock (h : HostId) (n : Nat) : (workingWindow h n s).clock = s.clock := by
  rw [workingWindow_frame s h n]
@[simp] theorem workingWindow_drawn (h : HostId) (n : Nat) : (workingWindow h n s).drawn = s.drawn := by
  rw [workingWindow_frame s h n]
@[simp] theorem workingWindow_pending (h : HostId) (n : Nat) : (workingWindow h n s).pending = s.pending := by
  rw [workingWindow_frame s h n]
@[simp] theorem workingWindow_source (h : HostId) (n : Nat) (x : SourceId) : (workingWindow h n s).source x = s.source x := by
  simp only [State.source, workingWindow_sources]
@[simp] theorem workingWindow_line (h : HostId) (n : Nat) (x : LineId) : (workingWindow h n s).line x = s.line x := by
  simp only [State.line, workingWindow_lines]
@[simp] theorem workingWindow_creditLimit (h : HostId) (n : Nat) (x : LaneId) : (workingWindow h n s).creditLimit x = s.creditLimit x := by
  simp only [State.creditLimit, workingWindow_lanes]
@[simp] theorem workingWindow_host (h : HostId) (n : Nat) (x : HostId) : (workingWindow h n s).host x = s.host x := by
  simp only [State.host, workingWindow_hosts]
@[simp] theorem workingWindow_atnOf (h : HostId) (n : Nat) (x : HostId) : (workingWindow h n s).atnOf x = s.atnOf x := by
  simp only [State.atnOf, workingWindow_atn]
@[simp] theorem workingWindow_waitingClaim (h : HostId) (n : Nat) (x : HostId) : (workingWindow h n s).waitingClaim x = s.waitingClaim x := by
  simp only [State.waitingClaim, workingWindow_waiting]
@[simp] theorem workingWindow_slot (h : HostId) (n : Nat) (x : SlotId) : (workingWindow h n s).slot x = s.slot x := by
  simp only [State.slot, workingWindow_slots]
@[simp] theorem workingWindow_attached (h : HostId) (n : Nat) (x : HostId) : (workingWindow h n s).attached x = s.attached x := by
  simp only [State.attached, State.host, workingWindow_hosts]
@[simp] theorem workingWindow_now (h : HostId) (n : Nat) : (workingWindow h n s).now = s.now := by
  simp only [State.now, workingWindow_clock]
@[simp] theorem workingWindow_liveTickets (h : HostId) (n : Nat) : (workingWindow h n s).liveTickets = s.liveTickets := by
  simp only [State.liveTickets, State.slot, workingWindow_slots]

/-- A window of another direction byte changes ports, drawn alone. -/
theorem otherWindow_frame (h : HostId) (n : Nat) :
    otherWindow h n s =
      { s with
        ports := (otherWindow h n s).ports
        drawn := (otherWindow h n s).drawn } := by
  unfold otherWindow
  split <;> rfl
@[simp] theorem otherWindow_sources (h : HostId) (n : Nat) : (otherWindow h n s).sources = s.sources := by
  rw [otherWindow_frame s h n]
@[simp] theorem otherWindow_lines (h : HostId) (n : Nat) : (otherWindow h n s).lines = s.lines := by
  rw [otherWindow_frame s h n]
@[simp] theorem otherWindow_sampled (h : HostId) (n : Nat) : (otherWindow h n s).sampled = s.sampled := by
  rw [otherWindow_frame s h n]
@[simp] theorem otherWindow_lanes (h : HostId) (n : Nat) : (otherWindow h n s).lanes = s.lanes := by
  rw [otherWindow_frame s h n]
@[simp] theorem otherWindow_hosts (h : HostId) (n : Nat) : (otherWindow h n s).hosts = s.hosts := by
  rw [otherWindow_frame s h n]
@[simp] theorem otherWindow_atn (h : HostId) (n : Nat) : (otherWindow h n s).atn = s.atn := by
  rw [otherWindow_frame s h n]
@[simp] theorem otherWindow_waiting (h : HostId) (n : Nat) : (otherWindow h n s).waiting = s.waiting := by
  rw [otherWindow_frame s h n]
@[simp] theorem otherWindow_rotation (h : HostId) (n : Nat) : (otherWindow h n s).rotation = s.rotation := by
  rw [otherWindow_frame s h n]
@[simp] theorem otherWindow_slots (h : HostId) (n : Nat) : (otherWindow h n s).slots = s.slots := by
  rw [otherWindow_frame s h n]
@[simp] theorem otherWindow_edit (h : HostId) (n : Nat) : (otherWindow h n s).edit = s.edit := by
  rw [otherWindow_frame s h n]
@[simp] theorem otherWindow_faults (h : HostId) (n : Nat) : (otherWindow h n s).faults = s.faults := by
  rw [otherWindow_frame s h n]
@[simp] theorem otherWindow_clock (h : HostId) (n : Nat) : (otherWindow h n s).clock = s.clock := by
  rw [otherWindow_frame s h n]
@[simp] theorem otherWindow_pending (h : HostId) (n : Nat) : (otherWindow h n s).pending = s.pending := by
  rw [otherWindow_frame s h n]
@[simp] theorem otherWindow_source (h : HostId) (n : Nat) (x : SourceId) : (otherWindow h n s).source x = s.source x := by
  simp only [State.source, otherWindow_sources]
@[simp] theorem otherWindow_line (h : HostId) (n : Nat) (x : LineId) : (otherWindow h n s).line x = s.line x := by
  simp only [State.line, otherWindow_lines]
@[simp] theorem otherWindow_creditLimit (h : HostId) (n : Nat) (x : LaneId) : (otherWindow h n s).creditLimit x = s.creditLimit x := by
  simp only [State.creditLimit, otherWindow_lanes]
@[simp] theorem otherWindow_host (h : HostId) (n : Nat) (x : HostId) : (otherWindow h n s).host x = s.host x := by
  simp only [State.host, otherWindow_hosts]
@[simp] theorem otherWindow_atnOf (h : HostId) (n : Nat) (x : HostId) : (otherWindow h n s).atnOf x = s.atnOf x := by
  simp only [State.atnOf, otherWindow_atn]
@[simp] theorem otherWindow_waitingClaim (h : HostId) (n : Nat) (x : HostId) : (otherWindow h n s).waitingClaim x = s.waitingClaim x := by
  simp only [State.waitingClaim, otherWindow_waiting]
@[simp] theorem otherWindow_slot (h : HostId) (n : Nat) (x : SlotId) : (otherWindow h n s).slot x = s.slot x := by
  simp only [State.slot, otherWindow_slots]
@[simp] theorem otherWindow_attached (h : HostId) (n : Nat) (x : HostId) : (otherWindow h n s).attached x = s.attached x := by
  simp only [State.attached, State.host, otherWindow_hosts]
@[simp] theorem otherWindow_now (h : HostId) (n : Nat) : (otherWindow h n s).now = s.now := by
  simp only [State.now, otherWindow_clock]
@[simp] theorem otherWindow_liveTickets (h : HostId) (n : Nat) : (otherWindow h n s).liveTickets = s.liveTickets := by
  simp only [State.liveTickets, State.slot, otherWindow_slots]

/-- An answer read changes ports alone. -/
theorem readWindow_frame (h : HostId) (n : Nat) :
    readWindow h n s =
      { s with
        ports := (readWindow h n s).ports } := by
  unfold readWindow
  dsimp only
  split
  · rfl
  · split <;> rfl
@[simp] theorem readWindow_sources (h : HostId) (n : Nat) : (readWindow h n s).sources = s.sources := by
  rw [readWindow_frame s h n]
@[simp] theorem readWindow_lines (h : HostId) (n : Nat) : (readWindow h n s).lines = s.lines := by
  rw [readWindow_frame s h n]
@[simp] theorem readWindow_sampled (h : HostId) (n : Nat) : (readWindow h n s).sampled = s.sampled := by
  rw [readWindow_frame s h n]
@[simp] theorem readWindow_lanes (h : HostId) (n : Nat) : (readWindow h n s).lanes = s.lanes := by
  rw [readWindow_frame s h n]
@[simp] theorem readWindow_hosts (h : HostId) (n : Nat) : (readWindow h n s).hosts = s.hosts := by
  rw [readWindow_frame s h n]
@[simp] theorem readWindow_atn (h : HostId) (n : Nat) : (readWindow h n s).atn = s.atn := by
  rw [readWindow_frame s h n]
@[simp] theorem readWindow_waiting (h : HostId) (n : Nat) : (readWindow h n s).waiting = s.waiting := by
  rw [readWindow_frame s h n]
@[simp] theorem readWindow_rotation (h : HostId) (n : Nat) : (readWindow h n s).rotation = s.rotation := by
  rw [readWindow_frame s h n]
@[simp] theorem readWindow_slots (h : HostId) (n : Nat) : (readWindow h n s).slots = s.slots := by
  rw [readWindow_frame s h n]
@[simp] theorem readWindow_edit (h : HostId) (n : Nat) : (readWindow h n s).edit = s.edit := by
  rw [readWindow_frame s h n]
@[simp] theorem readWindow_faults (h : HostId) (n : Nat) : (readWindow h n s).faults = s.faults := by
  rw [readWindow_frame s h n]
@[simp] theorem readWindow_clock (h : HostId) (n : Nat) : (readWindow h n s).clock = s.clock := by
  rw [readWindow_frame s h n]
@[simp] theorem readWindow_drawn (h : HostId) (n : Nat) : (readWindow h n s).drawn = s.drawn := by
  rw [readWindow_frame s h n]
@[simp] theorem readWindow_pending (h : HostId) (n : Nat) : (readWindow h n s).pending = s.pending := by
  rw [readWindow_frame s h n]
@[simp] theorem readWindow_source (h : HostId) (n : Nat) (x : SourceId) : (readWindow h n s).source x = s.source x := by
  simp only [State.source, readWindow_sources]
@[simp] theorem readWindow_line (h : HostId) (n : Nat) (x : LineId) : (readWindow h n s).line x = s.line x := by
  simp only [State.line, readWindow_lines]
@[simp] theorem readWindow_creditLimit (h : HostId) (n : Nat) (x : LaneId) : (readWindow h n s).creditLimit x = s.creditLimit x := by
  simp only [State.creditLimit, readWindow_lanes]
@[simp] theorem readWindow_host (h : HostId) (n : Nat) (x : HostId) : (readWindow h n s).host x = s.host x := by
  simp only [State.host, readWindow_hosts]
@[simp] theorem readWindow_atnOf (h : HostId) (n : Nat) (x : HostId) : (readWindow h n s).atnOf x = s.atnOf x := by
  simp only [State.atnOf, readWindow_atn]
@[simp] theorem readWindow_waitingClaim (h : HostId) (n : Nat) (x : HostId) : (readWindow h n s).waitingClaim x = s.waitingClaim x := by
  simp only [State.waitingClaim, readWindow_waiting]
@[simp] theorem readWindow_slot (h : HostId) (n : Nat) (x : SlotId) : (readWindow h n s).slot x = s.slot x := by
  simp only [State.slot, readWindow_slots]
@[simp] theorem readWindow_attached (h : HostId) (n : Nat) (x : HostId) : (readWindow h n s).attached x = s.attached x := by
  simp only [State.attached, State.host, readWindow_hosts]
@[simp] theorem readWindow_now (h : HostId) (n : Nat) : (readWindow h n s).now = s.now := by
  simp only [State.now, readWindow_clock]
@[simp] theorem readWindow_liveTickets (h : HostId) (n : Nat) : (readWindow h n s).liveTickets = s.liveTickets := by
  simp only [State.liveTickets, State.slot, readWindow_slots]

/-- The end of a reset changes lines, sampled, ports alone. -/
theorem endReset_frame (e : ResetEnd) :
    endReset e s =
      { s with
        lines := (endReset e s).lines
        sampled := (endReset e s).sampled
        ports := (endReset e s).ports } := by
  simp only [endReset, State.setSampled, State.mapPorts, State.mapLines]
@[simp] theorem endReset_sources (e : ResetEnd) : (endReset e s).sources = s.sources := by
  rw [endReset_frame s e]
@[simp] theorem endReset_lanes (e : ResetEnd) : (endReset e s).lanes = s.lanes := by
  rw [endReset_frame s e]
@[simp] theorem endReset_hosts (e : ResetEnd) : (endReset e s).hosts = s.hosts := by
  rw [endReset_frame s e]
@[simp] theorem endReset_atn (e : ResetEnd) : (endReset e s).atn = s.atn := by
  rw [endReset_frame s e]
@[simp] theorem endReset_waiting (e : ResetEnd) : (endReset e s).waiting = s.waiting := by
  rw [endReset_frame s e]
@[simp] theorem endReset_rotation (e : ResetEnd) : (endReset e s).rotation = s.rotation := by
  rw [endReset_frame s e]
@[simp] theorem endReset_slots (e : ResetEnd) : (endReset e s).slots = s.slots := by
  rw [endReset_frame s e]
@[simp] theorem endReset_edit (e : ResetEnd) : (endReset e s).edit = s.edit := by
  rw [endReset_frame s e]
@[simp] theorem endReset_faults (e : ResetEnd) : (endReset e s).faults = s.faults := by
  rw [endReset_frame s e]
@[simp] theorem endReset_clock (e : ResetEnd) : (endReset e s).clock = s.clock := by
  rw [endReset_frame s e]
@[simp] theorem endReset_drawn (e : ResetEnd) : (endReset e s).drawn = s.drawn := by
  rw [endReset_frame s e]
@[simp] theorem endReset_pending (e : ResetEnd) : (endReset e s).pending = s.pending := by
  rw [endReset_frame s e]
@[simp] theorem endReset_source (e : ResetEnd) (x : SourceId) : (endReset e s).source x = s.source x := by
  simp only [State.source, endReset_sources]
@[simp] theorem endReset_creditLimit (e : ResetEnd) (x : LaneId) : (endReset e s).creditLimit x = s.creditLimit x := by
  simp only [State.creditLimit, endReset_lanes]
@[simp] theorem endReset_host (e : ResetEnd) (x : HostId) : (endReset e s).host x = s.host x := by
  simp only [State.host, endReset_hosts]
@[simp] theorem endReset_atnOf (e : ResetEnd) (x : HostId) : (endReset e s).atnOf x = s.atnOf x := by
  simp only [State.atnOf, endReset_atn]
@[simp] theorem endReset_waitingClaim (e : ResetEnd) (x : HostId) : (endReset e s).waitingClaim x = s.waitingClaim x := by
  simp only [State.waitingClaim, endReset_waiting]
@[simp] theorem endReset_slot (e : ResetEnd) (x : SlotId) : (endReset e s).slot x = s.slot x := by
  simp only [State.slot, endReset_slots]
@[simp] theorem endReset_attached (e : ResetEnd) (x : HostId) : (endReset e s).attached x = s.attached x := by
  simp only [State.attached, State.host, endReset_hosts]
@[simp] theorem endReset_now (e : ResetEnd) : (endReset e s).now = s.now := by
  simp only [State.now, endReset_clock]
@[simp] theorem endReset_liveTickets (e : ResetEnd) : (endReset e s).liveTickets = s.liveTickets := by
  simp only [State.liveTickets, State.slot, endReset_slots]

/-- The freeing of a slot changes slots alone. -/
theorem freeSlot_frame (k : SlotId) :
    freeSlot k s =
      { s with
        slots := (freeSlot k s).slots } := rfl
@[simp] theorem freeSlot_sources (k : SlotId) : (freeSlot k s).sources = s.sources := by
  rw [freeSlot_frame s k]
@[simp] theorem freeSlot_lines (k : SlotId) : (freeSlot k s).lines = s.lines := by
  rw [freeSlot_frame s k]
@[simp] theorem freeSlot_sampled (k : SlotId) : (freeSlot k s).sampled = s.sampled := by
  rw [freeSlot_frame s k]
@[simp] theorem freeSlot_lanes (k : SlotId) : (freeSlot k s).lanes = s.lanes := by
  rw [freeSlot_frame s k]
@[simp] theorem freeSlot_hosts (k : SlotId) : (freeSlot k s).hosts = s.hosts := by
  rw [freeSlot_frame s k]
@[simp] theorem freeSlot_atn (k : SlotId) : (freeSlot k s).atn = s.atn := by
  rw [freeSlot_frame s k]
@[simp] theorem freeSlot_waiting (k : SlotId) : (freeSlot k s).waiting = s.waiting := by
  rw [freeSlot_frame s k]
@[simp] theorem freeSlot_rotation (k : SlotId) : (freeSlot k s).rotation = s.rotation := by
  rw [freeSlot_frame s k]
@[simp] theorem freeSlot_edit (k : SlotId) : (freeSlot k s).edit = s.edit := by
  rw [freeSlot_frame s k]
@[simp] theorem freeSlot_faults (k : SlotId) : (freeSlot k s).faults = s.faults := by
  rw [freeSlot_frame s k]
@[simp] theorem freeSlot_ports (k : SlotId) : (freeSlot k s).ports = s.ports := by
  rw [freeSlot_frame s k]
@[simp] theorem freeSlot_clock (k : SlotId) : (freeSlot k s).clock = s.clock := by
  rw [freeSlot_frame s k]
@[simp] theorem freeSlot_drawn (k : SlotId) : (freeSlot k s).drawn = s.drawn := by
  rw [freeSlot_frame s k]
@[simp] theorem freeSlot_pending (k : SlotId) : (freeSlot k s).pending = s.pending := by
  rw [freeSlot_frame s k]
@[simp] theorem freeSlot_source (k : SlotId) (x : SourceId) : (freeSlot k s).source x = s.source x := by
  simp only [State.source, freeSlot_sources]
@[simp] theorem freeSlot_line (k : SlotId) (x : LineId) : (freeSlot k s).line x = s.line x := by
  simp only [State.line, freeSlot_lines]
@[simp] theorem freeSlot_creditLimit (k : SlotId) (x : LaneId) : (freeSlot k s).creditLimit x = s.creditLimit x := by
  simp only [State.creditLimit, freeSlot_lanes]
@[simp] theorem freeSlot_host (k : SlotId) (x : HostId) : (freeSlot k s).host x = s.host x := by
  simp only [State.host, freeSlot_hosts]
@[simp] theorem freeSlot_atnOf (k : SlotId) (x : HostId) : (freeSlot k s).atnOf x = s.atnOf x := by
  simp only [State.atnOf, freeSlot_atn]
@[simp] theorem freeSlot_waitingClaim (k : SlotId) (x : HostId) : (freeSlot k s).waitingClaim x = s.waitingClaim x := by
  simp only [State.waitingClaim, freeSlot_waiting]
@[simp] theorem freeSlot_port (k : SlotId) (x : HostId) : (freeSlot k s).port x = s.port x := by
  simp only [State.port, freeSlot_ports]
@[simp] theorem freeSlot_attached (k : SlotId) (x : HostId) : (freeSlot k s).attached x = s.attached x := by
  simp only [State.attached, State.host, freeSlot_hosts]
@[simp] theorem freeSlot_now (k : SlotId) : (freeSlot k s).now = s.now := by
  simp only [State.now, freeSlot_clock]

/-- An end by DONE changes sources, slots alone. -/
theorem endDone_frame (k : SlotId) (t : Ticket) :
    endDone k t s =
      { s with
        sources := (endDone k t s).sources
        slots := (endDone k t s).slots } := by
  unfold endDone
  dsimp only
  split
  · rw [levelCheck_frame]
    rfl
  · rfl
@[simp] theorem endDone_lines (k : SlotId) (t : Ticket) : (endDone k t s).lines = s.lines := by
  rw [endDone_frame s k t]
@[simp] theorem endDone_sampled (k : SlotId) (t : Ticket) : (endDone k t s).sampled = s.sampled := by
  rw [endDone_frame s k t]
@[simp] theorem endDone_lanes (k : SlotId) (t : Ticket) : (endDone k t s).lanes = s.lanes := by
  rw [endDone_frame s k t]
@[simp] theorem endDone_hosts (k : SlotId) (t : Ticket) : (endDone k t s).hosts = s.hosts := by
  rw [endDone_frame s k t]
@[simp] theorem endDone_atn (k : SlotId) (t : Ticket) : (endDone k t s).atn = s.atn := by
  rw [endDone_frame s k t]
@[simp] theorem endDone_waiting (k : SlotId) (t : Ticket) : (endDone k t s).waiting = s.waiting := by
  rw [endDone_frame s k t]
@[simp] theorem endDone_rotation (k : SlotId) (t : Ticket) : (endDone k t s).rotation = s.rotation := by
  rw [endDone_frame s k t]
@[simp] theorem endDone_edit (k : SlotId) (t : Ticket) : (endDone k t s).edit = s.edit := by
  rw [endDone_frame s k t]
@[simp] theorem endDone_faults (k : SlotId) (t : Ticket) : (endDone k t s).faults = s.faults := by
  rw [endDone_frame s k t]
@[simp] theorem endDone_ports (k : SlotId) (t : Ticket) : (endDone k t s).ports = s.ports := by
  rw [endDone_frame s k t]
@[simp] theorem endDone_clock (k : SlotId) (t : Ticket) : (endDone k t s).clock = s.clock := by
  rw [endDone_frame s k t]
@[simp] theorem endDone_drawn (k : SlotId) (t : Ticket) : (endDone k t s).drawn = s.drawn := by
  rw [endDone_frame s k t]
@[simp] theorem endDone_pending (k : SlotId) (t : Ticket) : (endDone k t s).pending = s.pending := by
  rw [endDone_frame s k t]
@[simp] theorem endDone_line (k : SlotId) (t : Ticket) (x : LineId) : (endDone k t s).line x = s.line x := by
  simp only [State.line, endDone_lines]
@[simp] theorem endDone_creditLimit (k : SlotId) (t : Ticket) (x : LaneId) : (endDone k t s).creditLimit x = s.creditLimit x := by
  simp only [State.creditLimit, endDone_lanes]
@[simp] theorem endDone_host (k : SlotId) (t : Ticket) (x : HostId) : (endDone k t s).host x = s.host x := by
  simp only [State.host, endDone_hosts]
@[simp] theorem endDone_atnOf (k : SlotId) (t : Ticket) (x : HostId) : (endDone k t s).atnOf x = s.atnOf x := by
  simp only [State.atnOf, endDone_atn]
@[simp] theorem endDone_waitingClaim (k : SlotId) (t : Ticket) (x : HostId) : (endDone k t s).waitingClaim x = s.waitingClaim x := by
  simp only [State.waitingClaim, endDone_waiting]
@[simp] theorem endDone_port (k : SlotId) (t : Ticket) (x : HostId) : (endDone k t s).port x = s.port x := by
  simp only [State.port, endDone_ports]
@[simp] theorem endDone_attached (k : SlotId) (t : Ticket) (x : HostId) : (endDone k t s).attached x = s.attached x := by
  simp only [State.attached, State.host, endDone_hosts]
@[simp] theorem endDone_now (k : SlotId) (t : Ticket) : (endDone k t s).now = s.now := by
  simp only [State.now, endDone_clock]

/-- An end by DEFER changes sources, slots alone. -/
theorem endDefer_frame (k : SlotId) (t : Ticket) :
    endDefer k t s =
      { s with
        sources := (endDefer k t s).sources
        slots := (endDefer k t s).slots } := by
  unfold endDefer
  dsimp only
  split
  · rw [levelCheck_frame]
    rfl
  · rfl
@[simp] theorem endDefer_lines (k : SlotId) (t : Ticket) : (endDefer k t s).lines = s.lines := by
  rw [endDefer_frame s k t]
@[simp] theorem endDefer_sampled (k : SlotId) (t : Ticket) : (endDefer k t s).sampled = s.sampled := by
  rw [endDefer_frame s k t]
@[simp] theorem endDefer_lanes (k : SlotId) (t : Ticket) : (endDefer k t s).lanes = s.lanes := by
  rw [endDefer_frame s k t]
@[simp] theorem endDefer_hosts (k : SlotId) (t : Ticket) : (endDefer k t s).hosts = s.hosts := by
  rw [endDefer_frame s k t]
@[simp] theorem endDefer_atn (k : SlotId) (t : Ticket) : (endDefer k t s).atn = s.atn := by
  rw [endDefer_frame s k t]
@[simp] theorem endDefer_waiting (k : SlotId) (t : Ticket) : (endDefer k t s).waiting = s.waiting := by
  rw [endDefer_frame s k t]
@[simp] theorem endDefer_rotation (k : SlotId) (t : Ticket) : (endDefer k t s).rotation = s.rotation := by
  rw [endDefer_frame s k t]
@[simp] theorem endDefer_edit (k : SlotId) (t : Ticket) : (endDefer k t s).edit = s.edit := by
  rw [endDefer_frame s k t]
@[simp] theorem endDefer_faults (k : SlotId) (t : Ticket) : (endDefer k t s).faults = s.faults := by
  rw [endDefer_frame s k t]
@[simp] theorem endDefer_ports (k : SlotId) (t : Ticket) : (endDefer k t s).ports = s.ports := by
  rw [endDefer_frame s k t]
@[simp] theorem endDefer_clock (k : SlotId) (t : Ticket) : (endDefer k t s).clock = s.clock := by
  rw [endDefer_frame s k t]
@[simp] theorem endDefer_drawn (k : SlotId) (t : Ticket) : (endDefer k t s).drawn = s.drawn := by
  rw [endDefer_frame s k t]
@[simp] theorem endDefer_pending (k : SlotId) (t : Ticket) : (endDefer k t s).pending = s.pending := by
  rw [endDefer_frame s k t]
@[simp] theorem endDefer_line (k : SlotId) (t : Ticket) (x : LineId) : (endDefer k t s).line x = s.line x := by
  simp only [State.line, endDefer_lines]
@[simp] theorem endDefer_creditLimit (k : SlotId) (t : Ticket) (x : LaneId) : (endDefer k t s).creditLimit x = s.creditLimit x := by
  simp only [State.creditLimit, endDefer_lanes]
@[simp] theorem endDefer_host (k : SlotId) (t : Ticket) (x : HostId) : (endDefer k t s).host x = s.host x := by
  simp only [State.host, endDefer_hosts]
@[simp] theorem endDefer_atnOf (k : SlotId) (t : Ticket) (x : HostId) : (endDefer k t s).atnOf x = s.atnOf x := by
  simp only [State.atnOf, endDefer_atn]
@[simp] theorem endDefer_waitingClaim (k : SlotId) (t : Ticket) (x : HostId) : (endDefer k t s).waitingClaim x = s.waitingClaim x := by
  simp only [State.waitingClaim, endDefer_waiting]
@[simp] theorem endDefer_port (k : SlotId) (t : Ticket) (x : HostId) : (endDefer k t s).port x = s.port x := by
  simp only [State.port, endDefer_ports]
@[simp] theorem endDefer_attached (k : SlotId) (t : Ticket) (x : HostId) : (endDefer k t s).attached x = s.attached x := by
  simp only [State.attached, State.host, endDefer_hosts]
@[simp] theorem endDefer_now (k : SlotId) (t : Ticket) : (endDefer k t s).now = s.now := by
  simp only [State.now, endDefer_clock]

/-- An expiry against an ARMED source changes sources, faults alone. -/
theorem expireArmed_frame (t : Ticket) :
    expireArmed t s =
      { s with
        sources := (expireArmed t s).sources
        faults := (expireArmed t s).faults } := by
  unfold expireArmed
  dsimp only
  split
  · split
    · rw [storeFault_frame]
      rfl
    · rw [levelCheck_frame]
      rfl
  · rw [levelCheck_frame]
    rfl
@[simp] theorem expireArmed_lines (t : Ticket) : (expireArmed t s).lines = s.lines := by
  rw [expireArmed_frame s t]
@[simp] theorem expireArmed_sampled (t : Ticket) : (expireArmed t s).sampled = s.sampled := by
  rw [expireArmed_frame s t]
@[simp] theorem expireArmed_lanes (t : Ticket) : (expireArmed t s).lanes = s.lanes := by
  rw [expireArmed_frame s t]
@[simp] theorem expireArmed_hosts (t : Ticket) : (expireArmed t s).hosts = s.hosts := by
  rw [expireArmed_frame s t]
@[simp] theorem expireArmed_atn (t : Ticket) : (expireArmed t s).atn = s.atn := by
  rw [expireArmed_frame s t]
@[simp] theorem expireArmed_waiting (t : Ticket) : (expireArmed t s).waiting = s.waiting := by
  rw [expireArmed_frame s t]
@[simp] theorem expireArmed_rotation (t : Ticket) : (expireArmed t s).rotation = s.rotation := by
  rw [expireArmed_frame s t]
@[simp] theorem expireArmed_slots (t : Ticket) : (expireArmed t s).slots = s.slots := by
  rw [expireArmed_frame s t]
@[simp] theorem expireArmed_edit (t : Ticket) : (expireArmed t s).edit = s.edit := by
  rw [expireArmed_frame s t]
@[simp] theorem expireArmed_ports (t : Ticket) : (expireArmed t s).ports = s.ports := by
  rw [expireArmed_frame s t]
@[simp] theorem expireArmed_clock (t : Ticket) : (expireArmed t s).clock = s.clock := by
  rw [expireArmed_frame s t]
@[simp] theorem expireArmed_drawn (t : Ticket) : (expireArmed t s).drawn = s.drawn := by
  rw [expireArmed_frame s t]
@[simp] theorem expireArmed_pending (t : Ticket) : (expireArmed t s).pending = s.pending := by
  rw [expireArmed_frame s t]
@[simp] theorem expireArmed_line (t : Ticket) (x : LineId) : (expireArmed t s).line x = s.line x := by
  simp only [State.line, expireArmed_lines]
@[simp] theorem expireArmed_creditLimit (t : Ticket) (x : LaneId) : (expireArmed t s).creditLimit x = s.creditLimit x := by
  simp only [State.creditLimit, expireArmed_lanes]
@[simp] theorem expireArmed_host (t : Ticket) (x : HostId) : (expireArmed t s).host x = s.host x := by
  simp only [State.host, expireArmed_hosts]
@[simp] theorem expireArmed_atnOf (t : Ticket) (x : HostId) : (expireArmed t s).atnOf x = s.atnOf x := by
  simp only [State.atnOf, expireArmed_atn]
@[simp] theorem expireArmed_waitingClaim (t : Ticket) (x : HostId) : (expireArmed t s).waitingClaim x = s.waitingClaim x := by
  simp only [State.waitingClaim, expireArmed_waiting]
@[simp] theorem expireArmed_slot (t : Ticket) (x : SlotId) : (expireArmed t s).slot x = s.slot x := by
  simp only [State.slot, expireArmed_slots]
@[simp] theorem expireArmed_port (t : Ticket) (x : HostId) : (expireArmed t s).port x = s.port x := by
  simp only [State.port, expireArmed_ports]
@[simp] theorem expireArmed_attached (t : Ticket) (x : HostId) : (expireArmed t s).attached x = s.attached x := by
  simp only [State.attached, State.host, expireArmed_hosts]
@[simp] theorem expireArmed_now (t : Ticket) : (expireArmed t s).now = s.now := by
  simp only [State.now, expireArmed_clock]
@[simp] theorem expireArmed_liveTickets (t : Ticket) : (expireArmed t s).liveTickets = s.liveTickets := by
  simp only [State.liveTickets, State.slot, expireArmed_slots]

/-- An end by lease expiry changes sources, slots, faults alone. -/
theorem endExpired_frame (k : SlotId) (t : Ticket) :
    endExpired k t s =
      { s with
        sources := (endExpired k t s).sources
        slots := (endExpired k t s).slots
        faults := (endExpired k t s).faults } := by
  unfold endExpired
  dsimp only
  split
  · rw [expireArmed_frame]
    rfl
  · rfl
@[simp] theorem endExpired_lines (k : SlotId) (t : Ticket) : (endExpired k t s).lines = s.lines := by
  rw [endExpired_frame s k t]
@[simp] theorem endExpired_sampled (k : SlotId) (t : Ticket) : (endExpired k t s).sampled = s.sampled := by
  rw [endExpired_frame s k t]
@[simp] theorem endExpired_lanes (k : SlotId) (t : Ticket) : (endExpired k t s).lanes = s.lanes := by
  rw [endExpired_frame s k t]
@[simp] theorem endExpired_hosts (k : SlotId) (t : Ticket) : (endExpired k t s).hosts = s.hosts := by
  rw [endExpired_frame s k t]
@[simp] theorem endExpired_atn (k : SlotId) (t : Ticket) : (endExpired k t s).atn = s.atn := by
  rw [endExpired_frame s k t]
@[simp] theorem endExpired_waiting (k : SlotId) (t : Ticket) : (endExpired k t s).waiting = s.waiting := by
  rw [endExpired_frame s k t]
@[simp] theorem endExpired_rotation (k : SlotId) (t : Ticket) : (endExpired k t s).rotation = s.rotation := by
  rw [endExpired_frame s k t]
@[simp] theorem endExpired_edit (k : SlotId) (t : Ticket) : (endExpired k t s).edit = s.edit := by
  rw [endExpired_frame s k t]
@[simp] theorem endExpired_ports (k : SlotId) (t : Ticket) : (endExpired k t s).ports = s.ports := by
  rw [endExpired_frame s k t]
@[simp] theorem endExpired_clock (k : SlotId) (t : Ticket) : (endExpired k t s).clock = s.clock := by
  rw [endExpired_frame s k t]
@[simp] theorem endExpired_drawn (k : SlotId) (t : Ticket) : (endExpired k t s).drawn = s.drawn := by
  rw [endExpired_frame s k t]
@[simp] theorem endExpired_pending (k : SlotId) (t : Ticket) : (endExpired k t s).pending = s.pending := by
  rw [endExpired_frame s k t]
@[simp] theorem endExpired_line (k : SlotId) (t : Ticket) (x : LineId) : (endExpired k t s).line x = s.line x := by
  simp only [State.line, endExpired_lines]
@[simp] theorem endExpired_creditLimit (k : SlotId) (t : Ticket) (x : LaneId) : (endExpired k t s).creditLimit x = s.creditLimit x := by
  simp only [State.creditLimit, endExpired_lanes]
@[simp] theorem endExpired_host (k : SlotId) (t : Ticket) (x : HostId) : (endExpired k t s).host x = s.host x := by
  simp only [State.host, endExpired_hosts]
@[simp] theorem endExpired_atnOf (k : SlotId) (t : Ticket) (x : HostId) : (endExpired k t s).atnOf x = s.atnOf x := by
  simp only [State.atnOf, endExpired_atn]
@[simp] theorem endExpired_waitingClaim (k : SlotId) (t : Ticket) (x : HostId) : (endExpired k t s).waitingClaim x = s.waitingClaim x := by
  simp only [State.waitingClaim, endExpired_waiting]
@[simp] theorem endExpired_port (k : SlotId) (t : Ticket) (x : HostId) : (endExpired k t s).port x = s.port x := by
  simp only [State.port, endExpired_ports]
@[simp] theorem endExpired_attached (k : SlotId) (t : Ticket) (x : HostId) : (endExpired k t s).attached x = s.attached x := by
  simp only [State.attached, State.host, endExpired_hosts]
@[simp] theorem endExpired_now (k : SlotId) (t : Ticket) : (endExpired k t s).now = s.now := by
  simp only [State.now, endExpired_clock]

/-- An end by host release changes sources, slots alone. -/
theorem endReleased_frame (k : SlotId) (t : Ticket) :
    endReleased k t s =
      { s with
        sources := (endReleased k t s).sources
        slots := (endReleased k t s).slots } := by
  unfold endReleased
  dsimp only
  split <;> rfl
@[simp] theorem endReleased_lines (k : SlotId) (t : Ticket) : (endReleased k t s).lines = s.lines := by
  rw [endReleased_frame s k t]
@[simp] theorem endReleased_sampled (k : SlotId) (t : Ticket) : (endReleased k t s).sampled = s.sampled := by
  rw [endReleased_frame s k t]
@[simp] theorem endReleased_lanes (k : SlotId) (t : Ticket) : (endReleased k t s).lanes = s.lanes := by
  rw [endReleased_frame s k t]
@[simp] theorem endReleased_hosts (k : SlotId) (t : Ticket) : (endReleased k t s).hosts = s.hosts := by
  rw [endReleased_frame s k t]
@[simp] theorem endReleased_atn (k : SlotId) (t : Ticket) : (endReleased k t s).atn = s.atn := by
  rw [endReleased_frame s k t]
@[simp] theorem endReleased_waiting (k : SlotId) (t : Ticket) : (endReleased k t s).waiting = s.waiting := by
  rw [endReleased_frame s k t]
@[simp] theorem endReleased_rotation (k : SlotId) (t : Ticket) : (endReleased k t s).rotation = s.rotation := by
  rw [endReleased_frame s k t]
@[simp] theorem endReleased_edit (k : SlotId) (t : Ticket) : (endReleased k t s).edit = s.edit := by
  rw [endReleased_frame s k t]
@[simp] theorem endReleased_faults (k : SlotId) (t : Ticket) : (endReleased k t s).faults = s.faults := by
  rw [endReleased_frame s k t]
@[simp] theorem endReleased_ports (k : SlotId) (t : Ticket) : (endReleased k t s).ports = s.ports := by
  rw [endReleased_frame s k t]
@[simp] theorem endReleased_clock (k : SlotId) (t : Ticket) : (endReleased k t s).clock = s.clock := by
  rw [endReleased_frame s k t]
@[simp] theorem endReleased_drawn (k : SlotId) (t : Ticket) : (endReleased k t s).drawn = s.drawn := by
  rw [endReleased_frame s k t]
@[simp] theorem endReleased_pending (k : SlotId) (t : Ticket) : (endReleased k t s).pending = s.pending := by
  rw [endReleased_frame s k t]
@[simp] theorem endReleased_line (k : SlotId) (t : Ticket) (x : LineId) : (endReleased k t s).line x = s.line x := by
  simp only [State.line, endReleased_lines]
@[simp] theorem endReleased_creditLimit (k : SlotId) (t : Ticket) (x : LaneId) : (endReleased k t s).creditLimit x = s.creditLimit x := by
  simp only [State.creditLimit, endReleased_lanes]
@[simp] theorem endReleased_host (k : SlotId) (t : Ticket) (x : HostId) : (endReleased k t s).host x = s.host x := by
  simp only [State.host, endReleased_hosts]
@[simp] theorem endReleased_atnOf (k : SlotId) (t : Ticket) (x : HostId) : (endReleased k t s).atnOf x = s.atnOf x := by
  simp only [State.atnOf, endReleased_atn]
@[simp] theorem endReleased_waitingClaim (k : SlotId) (t : Ticket) (x : HostId) : (endReleased k t s).waitingClaim x = s.waitingClaim x := by
  simp only [State.waitingClaim, endReleased_waiting]
@[simp] theorem endReleased_port (k : SlotId) (t : Ticket) (x : HostId) : (endReleased k t s).port x = s.port x := by
  simp only [State.port, endReleased_ports]
@[simp] theorem endReleased_attached (k : SlotId) (t : Ticket) (x : HostId) : (endReleased k t s).attached x = s.attached x := by
  simp only [State.attached, State.host, endReleased_hosts]
@[simp] theorem endReleased_now (k : SlotId) (t : Ticket) : (endReleased k t s).now = s.now := by
  simp only [State.now, endReleased_clock]

/-- The release of one slot changes sources, slots alone. -/
theorem releaseSlot_frame (h : HostId) (k : SlotId) :
    releaseSlot h k s =
      { s with
        sources := (releaseSlot h k s).sources
        slots := (releaseSlot h k s).slots } := by
  unfold releaseSlot
  split
  · split
    · exact endReleased_frame s k _
    · rfl
  · rfl
@[simp] theorem releaseSlot_lines (h : HostId) (k : SlotId) : (releaseSlot h k s).lines = s.lines := by
  rw [releaseSlot_frame s h k]
@[simp] theorem releaseSlot_sampled (h : HostId) (k : SlotId) : (releaseSlot h k s).sampled = s.sampled := by
  rw [releaseSlot_frame s h k]
@[simp] theorem releaseSlot_lanes (h : HostId) (k : SlotId) : (releaseSlot h k s).lanes = s.lanes := by
  rw [releaseSlot_frame s h k]
@[simp] theorem releaseSlot_hosts (h : HostId) (k : SlotId) : (releaseSlot h k s).hosts = s.hosts := by
  rw [releaseSlot_frame s h k]
@[simp] theorem releaseSlot_atn (h : HostId) (k : SlotId) : (releaseSlot h k s).atn = s.atn := by
  rw [releaseSlot_frame s h k]
@[simp] theorem releaseSlot_waiting (h : HostId) (k : SlotId) : (releaseSlot h k s).waiting = s.waiting := by
  rw [releaseSlot_frame s h k]
@[simp] theorem releaseSlot_rotation (h : HostId) (k : SlotId) : (releaseSlot h k s).rotation = s.rotation := by
  rw [releaseSlot_frame s h k]
@[simp] theorem releaseSlot_edit (h : HostId) (k : SlotId) : (releaseSlot h k s).edit = s.edit := by
  rw [releaseSlot_frame s h k]
@[simp] theorem releaseSlot_faults (h : HostId) (k : SlotId) : (releaseSlot h k s).faults = s.faults := by
  rw [releaseSlot_frame s h k]
@[simp] theorem releaseSlot_ports (h : HostId) (k : SlotId) : (releaseSlot h k s).ports = s.ports := by
  rw [releaseSlot_frame s h k]
@[simp] theorem releaseSlot_clock (h : HostId) (k : SlotId) : (releaseSlot h k s).clock = s.clock := by
  rw [releaseSlot_frame s h k]
@[simp] theorem releaseSlot_drawn (h : HostId) (k : SlotId) : (releaseSlot h k s).drawn = s.drawn := by
  rw [releaseSlot_frame s h k]
@[simp] theorem releaseSlot_pending (h : HostId) (k : SlotId) : (releaseSlot h k s).pending = s.pending := by
  rw [releaseSlot_frame s h k]
@[simp] theorem releaseSlot_line (h : HostId) (k : SlotId) (x : LineId) : (releaseSlot h k s).line x = s.line x := by
  simp only [State.line, releaseSlot_lines]
@[simp] theorem releaseSlot_creditLimit (h : HostId) (k : SlotId) (x : LaneId) : (releaseSlot h k s).creditLimit x = s.creditLimit x := by
  simp only [State.creditLimit, releaseSlot_lanes]
@[simp] theorem releaseSlot_host (h : HostId) (k : SlotId) (x : HostId) : (releaseSlot h k s).host x = s.host x := by
  simp only [State.host, releaseSlot_hosts]
@[simp] theorem releaseSlot_atnOf (h : HostId) (k : SlotId) (x : HostId) : (releaseSlot h k s).atnOf x = s.atnOf x := by
  simp only [State.atnOf, releaseSlot_atn]
@[simp] theorem releaseSlot_waitingClaim (h : HostId) (k : SlotId) (x : HostId) : (releaseSlot h k s).waitingClaim x = s.waitingClaim x := by
  simp only [State.waitingClaim, releaseSlot_waiting]
@[simp] theorem releaseSlot_port (h : HostId) (k : SlotId) (x : HostId) : (releaseSlot h k s).port x = s.port x := by
  simp only [State.port, releaseSlot_ports]
@[simp] theorem releaseSlot_attached (h : HostId) (k : SlotId) (x : HostId) : (releaseSlot h k s).attached x = s.attached x := by
  simp only [State.attached, State.host, releaseSlot_hosts]
@[simp] theorem releaseSlot_now (h : HostId) (k : SlotId) : (releaseSlot h k s).now = s.now := by
  simp only [State.now, releaseSlot_clock]

/-- The release of all tickets of a host changes sources, slots alone. -/
theorem releaseTickets_frame (h : HostId) :
    releaseTickets h s =
      { s with
        sources := (releaseTickets h s).sources
        slots := (releaseTickets h s).slots } := by
  unfold releaseTickets
  generalize allSlots = l
  induction l generalizing s with
  | nil => rfl
  | cons k rest ih =>
    rw [List.foldl_cons, ih, releaseSlot_frame]
@[simp] theorem releaseTickets_lines (h : HostId) : (releaseTickets h s).lines = s.lines := by
  rw [releaseTickets_frame s h]
@[simp] theorem releaseTickets_sampled (h : HostId) : (releaseTickets h s).sampled = s.sampled := by
  rw [releaseTickets_frame s h]
@[simp] theorem releaseTickets_lanes (h : HostId) : (releaseTickets h s).lanes = s.lanes := by
  rw [releaseTickets_frame s h]
@[simp] theorem releaseTickets_hosts (h : HostId) : (releaseTickets h s).hosts = s.hosts := by
  rw [releaseTickets_frame s h]
@[simp] theorem releaseTickets_atn (h : HostId) : (releaseTickets h s).atn = s.atn := by
  rw [releaseTickets_frame s h]
@[simp] theorem releaseTickets_waiting (h : HostId) : (releaseTickets h s).waiting = s.waiting := by
  rw [releaseTickets_frame s h]
@[simp] theorem releaseTickets_rotation (h : HostId) : (releaseTickets h s).rotation = s.rotation := by
  rw [releaseTickets_frame s h]
@[simp] theorem releaseTickets_edit (h : HostId) : (releaseTickets h s).edit = s.edit := by
  rw [releaseTickets_frame s h]
@[simp] theorem releaseTickets_faults (h : HostId) : (releaseTickets h s).faults = s.faults := by
  rw [releaseTickets_frame s h]
@[simp] theorem releaseTickets_ports (h : HostId) : (releaseTickets h s).ports = s.ports := by
  rw [releaseTickets_frame s h]
@[simp] theorem releaseTickets_clock (h : HostId) : (releaseTickets h s).clock = s.clock := by
  rw [releaseTickets_frame s h]
@[simp] theorem releaseTickets_drawn (h : HostId) : (releaseTickets h s).drawn = s.drawn := by
  rw [releaseTickets_frame s h]
@[simp] theorem releaseTickets_pending (h : HostId) : (releaseTickets h s).pending = s.pending := by
  rw [releaseTickets_frame s h]
@[simp] theorem releaseTickets_line (h : HostId) (x : LineId) : (releaseTickets h s).line x = s.line x := by
  simp only [State.line, releaseTickets_lines]
@[simp] theorem releaseTickets_creditLimit (h : HostId) (x : LaneId) : (releaseTickets h s).creditLimit x = s.creditLimit x := by
  simp only [State.creditLimit, releaseTickets_lanes]
@[simp] theorem releaseTickets_host (h : HostId) (x : HostId) : (releaseTickets h s).host x = s.host x := by
  simp only [State.host, releaseTickets_hosts]
@[simp] theorem releaseTickets_atnOf (h : HostId) (x : HostId) : (releaseTickets h s).atnOf x = s.atnOf x := by
  simp only [State.atnOf, releaseTickets_atn]
@[simp] theorem releaseTickets_waitingClaim (h : HostId) (x : HostId) : (releaseTickets h s).waitingClaim x = s.waitingClaim x := by
  simp only [State.waitingClaim, releaseTickets_waiting]
@[simp] theorem releaseTickets_port (h : HostId) (x : HostId) : (releaseTickets h s).port x = s.port x := by
  simp only [State.port, releaseTickets_ports]
@[simp] theorem releaseTickets_attached (h : HostId) (x : HostId) : (releaseTickets h s).attached x = s.attached x := by
  simp only [State.attached, State.host, releaseTickets_hosts]
@[simp] theorem releaseTickets_now (h : HostId) : (releaseTickets h s).now = s.now := by
  simp only [State.now, releaseTickets_clock]

/-- The clearing of what is owed to a host changes sources alone. -/
theorem clearOwedTo_frame (h : HostId) :
    clearOwedTo h s =
      { s with
        sources := (clearOwedTo h s).sources } := rfl
@[simp] theorem clearOwedTo_lines (h : HostId) : (clearOwedTo h s).lines = s.lines := by
  rw [clearOwedTo_frame s h]
@[simp] theorem clearOwedTo_sampled (h : HostId) : (clearOwedTo h s).sampled = s.sampled := by
  rw [clearOwedTo_frame s h]
@[simp] theorem clearOwedTo_lanes (h : HostId) : (clearOwedTo h s).lanes = s.lanes := by
  rw [clearOwedTo_frame s h]
@[simp] theorem clearOwedTo_hosts (h : HostId) : (clearOwedTo h s).hosts = s.hosts := by
  rw [clearOwedTo_frame s h]
@[simp] theorem clearOwedTo_atn (h : HostId) : (clearOwedTo h s).atn = s.atn := by
  rw [clearOwedTo_frame s h]
@[simp] theorem clearOwedTo_waiting (h : HostId) : (clearOwedTo h s).waiting = s.waiting := by
  rw [clearOwedTo_frame s h]
@[simp] theorem clearOwedTo_rotation (h : HostId) : (clearOwedTo h s).rotation = s.rotation := by
  rw [clearOwedTo_frame s h]
@[simp] theorem clearOwedTo_slots (h : HostId) : (clearOwedTo h s).slots = s.slots := by
  rw [clearOwedTo_frame s h]
@[simp] theorem clearOwedTo_edit (h : HostId) : (clearOwedTo h s).edit = s.edit := by
  rw [clearOwedTo_frame s h]
@[simp] theorem clearOwedTo_faults (h : HostId) : (clearOwedTo h s).faults = s.faults := by
  rw [clearOwedTo_frame s h]
@[simp] theorem clearOwedTo_ports (h : HostId) : (clearOwedTo h s).ports = s.ports := by
  rw [clearOwedTo_frame s h]
@[simp] theorem clearOwedTo_clock (h : HostId) : (clearOwedTo h s).clock = s.clock := by
  rw [clearOwedTo_frame s h]
@[simp] theorem clearOwedTo_drawn (h : HostId) : (clearOwedTo h s).drawn = s.drawn := by
  rw [clearOwedTo_frame s h]
@[simp] theorem clearOwedTo_pending (h : HostId) : (clearOwedTo h s).pending = s.pending := by
  rw [clearOwedTo_frame s h]
@[simp] theorem clearOwedTo_line (h : HostId) (x : LineId) : (clearOwedTo h s).line x = s.line x := by
  simp only [State.line, clearOwedTo_lines]
@[simp] theorem clearOwedTo_creditLimit (h : HostId) (x : LaneId) : (clearOwedTo h s).creditLimit x = s.creditLimit x := by
  simp only [State.creditLimit, clearOwedTo_lanes]
@[simp] theorem clearOwedTo_host (h : HostId) (x : HostId) : (clearOwedTo h s).host x = s.host x := by
  simp only [State.host, clearOwedTo_hosts]
@[simp] theorem clearOwedTo_atnOf (h : HostId) (x : HostId) : (clearOwedTo h s).atnOf x = s.atnOf x := by
  simp only [State.atnOf, clearOwedTo_atn]
@[simp] theorem clearOwedTo_waitingClaim (h : HostId) (x : HostId) : (clearOwedTo h s).waitingClaim x = s.waitingClaim x := by
  simp only [State.waitingClaim, clearOwedTo_waiting]
@[simp] theorem clearOwedTo_slot (h : HostId) (x : SlotId) : (clearOwedTo h s).slot x = s.slot x := by
  simp only [State.slot, clearOwedTo_slots]
@[simp] theorem clearOwedTo_port (h : HostId) (x : HostId) : (clearOwedTo h s).port x = s.port x := by
  simp only [State.port, clearOwedTo_ports]
@[simp] theorem clearOwedTo_attached (h : HostId) (x : HostId) : (clearOwedTo h s).attached x = s.attached x := by
  simp only [State.attached, State.host, clearOwedTo_hosts]
@[simp] theorem clearOwedTo_now (h : HostId) : (clearOwedTo h s).now = s.now := by
  simp only [State.now, clearOwedTo_clock]
@[simp] theorem clearOwedTo_liveTickets (h : HostId) : (clearOwedTo h s).liveTickets = s.liveTickets := by
  simp only [State.liveTickets, State.slot, clearOwedTo_slots]

/-- The end of a released session changes edit alone. -/
theorem releaseSession_frame (h : HostId) :
    releaseSession h s =
      { s with
        edit := (releaseSession h s).edit } := by
  unfold releaseSession
  split <;> rfl
@[simp] theorem releaseSession_sources (h : HostId) : (releaseSession h s).sources = s.sources := by
  rw [releaseSession_frame s h]
@[simp] theorem releaseSession_lines (h : HostId) : (releaseSession h s).lines = s.lines := by
  rw [releaseSession_frame s h]
@[simp] theorem releaseSession_sampled (h : HostId) : (releaseSession h s).sampled = s.sampled := by
  rw [releaseSession_frame s h]
@[simp] theorem releaseSession_lanes (h : HostId) : (releaseSession h s).lanes = s.lanes := by
  rw [releaseSession_frame s h]
@[simp] theorem releaseSession_hosts (h : HostId) : (releaseSession h s).hosts = s.hosts := by
  rw [releaseSession_frame s h]
@[simp] theorem releaseSession_atn (h : HostId) : (releaseSession h s).atn = s.atn := by
  rw [releaseSession_frame s h]
@[simp] theorem releaseSession_waiting (h : HostId) : (releaseSession h s).waiting = s.waiting := by
  rw [releaseSession_frame s h]
@[simp] theorem releaseSession_rotation (h : HostId) : (releaseSession h s).rotation = s.rotation := by
  rw [releaseSession_frame s h]
@[simp] theorem releaseSession_slots (h : HostId) : (releaseSession h s).slots = s.slots := by
  rw [releaseSession_frame s h]
@[simp] theorem releaseSession_faults (h : HostId) : (releaseSession h s).faults = s.faults := by
  rw [releaseSession_frame s h]
@[simp] theorem releaseSession_ports (h : HostId) : (releaseSession h s).ports = s.ports := by
  rw [releaseSession_frame s h]
@[simp] theorem releaseSession_clock (h : HostId) : (releaseSession h s).clock = s.clock := by
  rw [releaseSession_frame s h]
@[simp] theorem releaseSession_drawn (h : HostId) : (releaseSession h s).drawn = s.drawn := by
  rw [releaseSession_frame s h]
@[simp] theorem releaseSession_pending (h : HostId) : (releaseSession h s).pending = s.pending := by
  rw [releaseSession_frame s h]
@[simp] theorem releaseSession_source (h : HostId) (x : SourceId) : (releaseSession h s).source x = s.source x := by
  simp only [State.source, releaseSession_sources]
@[simp] theorem releaseSession_line (h : HostId) (x : LineId) : (releaseSession h s).line x = s.line x := by
  simp only [State.line, releaseSession_lines]
@[simp] theorem releaseSession_creditLimit (h : HostId) (x : LaneId) : (releaseSession h s).creditLimit x = s.creditLimit x := by
  simp only [State.creditLimit, releaseSession_lanes]
@[simp] theorem releaseSession_host (h : HostId) (x : HostId) : (releaseSession h s).host x = s.host x := by
  simp only [State.host, releaseSession_hosts]
@[simp] theorem releaseSession_atnOf (h : HostId) (x : HostId) : (releaseSession h s).atnOf x = s.atnOf x := by
  simp only [State.atnOf, releaseSession_atn]
@[simp] theorem releaseSession_waitingClaim (h : HostId) (x : HostId) : (releaseSession h s).waitingClaim x = s.waitingClaim x := by
  simp only [State.waitingClaim, releaseSession_waiting]
@[simp] theorem releaseSession_slot (h : HostId) (x : SlotId) : (releaseSession h s).slot x = s.slot x := by
  simp only [State.slot, releaseSession_slots]
@[simp] theorem releaseSession_port (h : HostId) (x : HostId) : (releaseSession h s).port x = s.port x := by
  simp only [State.port, releaseSession_ports]
@[simp] theorem releaseSession_attached (h : HostId) (x : HostId) : (releaseSession h s).attached x = s.attached x := by
  simp only [State.attached, State.host, releaseSession_hosts]
@[simp] theorem releaseSession_now (h : HostId) : (releaseSession h s).now = s.now := by
  simp only [State.now, releaseSession_clock]
@[simp] theorem releaseSession_liveTickets (h : HostId) : (releaseSession h s).liveTickets = s.liveTickets := by
  simp only [State.liveTickets, State.slot, releaseSession_slots]

/-- The level checks of a release changes sources alone. -/
theorem releaseChecks_frame (l : List Ticket) :
    releaseChecks l s =
      { s with
        sources := (releaseChecks l s).sources } := by
  unfold releaseChecks
  induction l generalizing s with
  | nil => rfl
  | cons t rest ih =>
    rw [List.foldl_cons, ih, levelCheck_frame]
@[simp] theorem releaseChecks_lines (l : List Ticket) : (releaseChecks l s).lines = s.lines := by
  rw [releaseChecks_frame s l]
@[simp] theorem releaseChecks_sampled (l : List Ticket) : (releaseChecks l s).sampled = s.sampled := by
  rw [releaseChecks_frame s l]
@[simp] theorem releaseChecks_lanes (l : List Ticket) : (releaseChecks l s).lanes = s.lanes := by
  rw [releaseChecks_frame s l]
@[simp] theorem releaseChecks_hosts (l : List Ticket) : (releaseChecks l s).hosts = s.hosts := by
  rw [releaseChecks_frame s l]
@[simp] theorem releaseChecks_atn (l : List Ticket) : (releaseChecks l s).atn = s.atn := by
  rw [releaseChecks_frame s l]
@[simp] theorem releaseChecks_waiting (l : List Ticket) : (releaseChecks l s).waiting = s.waiting := by
  rw [releaseChecks_frame s l]
@[simp] theorem releaseChecks_rotation (l : List Ticket) : (releaseChecks l s).rotation = s.rotation := by
  rw [releaseChecks_frame s l]
@[simp] theorem releaseChecks_slots (l : List Ticket) : (releaseChecks l s).slots = s.slots := by
  rw [releaseChecks_frame s l]
@[simp] theorem releaseChecks_edit (l : List Ticket) : (releaseChecks l s).edit = s.edit := by
  rw [releaseChecks_frame s l]
@[simp] theorem releaseChecks_faults (l : List Ticket) : (releaseChecks l s).faults = s.faults := by
  rw [releaseChecks_frame s l]
@[simp] theorem releaseChecks_ports (l : List Ticket) : (releaseChecks l s).ports = s.ports := by
  rw [releaseChecks_frame s l]
@[simp] theorem releaseChecks_clock (l : List Ticket) : (releaseChecks l s).clock = s.clock := by
  rw [releaseChecks_frame s l]
@[simp] theorem releaseChecks_drawn (l : List Ticket) : (releaseChecks l s).drawn = s.drawn := by
  rw [releaseChecks_frame s l]
@[simp] theorem releaseChecks_pending (l : List Ticket) : (releaseChecks l s).pending = s.pending := by
  rw [releaseChecks_frame s l]
@[simp] theorem releaseChecks_line (l : List Ticket) (x : LineId) : (releaseChecks l s).line x = s.line x := by
  simp only [State.line, releaseChecks_lines]
@[simp] theorem releaseChecks_creditLimit (l : List Ticket) (x : LaneId) : (releaseChecks l s).creditLimit x = s.creditLimit x := by
  simp only [State.creditLimit, releaseChecks_lanes]
@[simp] theorem releaseChecks_host (l : List Ticket) (x : HostId) : (releaseChecks l s).host x = s.host x := by
  simp only [State.host, releaseChecks_hosts]
@[simp] theorem releaseChecks_atnOf (l : List Ticket) (x : HostId) : (releaseChecks l s).atnOf x = s.atnOf x := by
  simp only [State.atnOf, releaseChecks_atn]
@[simp] theorem releaseChecks_waitingClaim (l : List Ticket) (x : HostId) : (releaseChecks l s).waitingClaim x = s.waitingClaim x := by
  simp only [State.waitingClaim, releaseChecks_waiting]
@[simp] theorem releaseChecks_slot (l : List Ticket) (x : SlotId) : (releaseChecks l s).slot x = s.slot x := by
  simp only [State.slot, releaseChecks_slots]
@[simp] theorem releaseChecks_port (l : List Ticket) (x : HostId) : (releaseChecks l s).port x = s.port x := by
  simp only [State.port, releaseChecks_ports]
@[simp] theorem releaseChecks_attached (l : List Ticket) (x : HostId) : (releaseChecks l s).attached x = s.attached x := by
  simp only [State.attached, State.host, releaseChecks_hosts]
@[simp] theorem releaseChecks_now (l : List Ticket) : (releaseChecks l s).now = s.now := by
  simp only [State.now, releaseChecks_clock]
@[simp] theorem releaseChecks_liveTickets (l : List Ticket) : (releaseChecks l s).liveTickets = s.liveTickets := by
  simp only [State.liveTickets, State.slot, releaseChecks_slots]

/-- The issue of a ticket changes sources, slots, atn alone. -/
theorem issue_frame (h : HostId) (i : SourceId) (k : SlotId) :
    issue h i k s =
      { s with
        sources := (issue h i k s).sources
        slots := (issue h i k s).slots
        atn := (issue h i k s).atn } := rfl
@[simp] theorem issue_lines (h : HostId) (i : SourceId) (k : SlotId) : (issue h i k s).lines = s.lines := by
  rw [issue_frame s h i k]
@[simp] theorem issue_sampled (h : HostId) (i : SourceId) (k : SlotId) : (issue h i k s).sampled = s.sampled := by
  rw [issue_frame s h i k]
@[simp] theorem issue_lanes (h : HostId) (i : SourceId) (k : SlotId) : (issue h i k s).lanes = s.lanes := by
  rw [issue_frame s h i k]
@[simp] theorem issue_hosts (h : HostId) (i : SourceId) (k : SlotId) : (issue h i k s).hosts = s.hosts := by
  rw [issue_frame s h i k]
@[simp] theorem issue_waiting (h : HostId) (i : SourceId) (k : SlotId) : (issue h i k s).waiting = s.waiting := by
  rw [issue_frame s h i k]
@[simp] theorem issue_rotation (h : HostId) (i : SourceId) (k : SlotId) : (issue h i k s).rotation = s.rotation := by
  rw [issue_frame s h i k]
@[simp] theorem issue_edit (h : HostId) (i : SourceId) (k : SlotId) : (issue h i k s).edit = s.edit := by
  rw [issue_frame s h i k]
@[simp] theorem issue_faults (h : HostId) (i : SourceId) (k : SlotId) : (issue h i k s).faults = s.faults := by
  rw [issue_frame s h i k]
@[simp] theorem issue_ports (h : HostId) (i : SourceId) (k : SlotId) : (issue h i k s).ports = s.ports := by
  rw [issue_frame s h i k]
@[simp] theorem issue_clock (h : HostId) (i : SourceId) (k : SlotId) : (issue h i k s).clock = s.clock := by
  rw [issue_frame s h i k]
@[simp] theorem issue_drawn (h : HostId) (i : SourceId) (k : SlotId) : (issue h i k s).drawn = s.drawn := by
  rw [issue_frame s h i k]
@[simp] theorem issue_pending (h : HostId) (i : SourceId) (k : SlotId) : (issue h i k s).pending = s.pending := by
  rw [issue_frame s h i k]
@[simp] theorem issue_line (h : HostId) (i : SourceId) (k : SlotId) (x : LineId) : (issue h i k s).line x = s.line x := by
  simp only [State.line, issue_lines]
@[simp] theorem issue_creditLimit (h : HostId) (i : SourceId) (k : SlotId) (x : LaneId) : (issue h i k s).creditLimit x = s.creditLimit x := by
  simp only [State.creditLimit, issue_lanes]
@[simp] theorem issue_host (h : HostId) (i : SourceId) (k : SlotId) (x : HostId) : (issue h i k s).host x = s.host x := by
  simp only [State.host, issue_hosts]
@[simp] theorem issue_waitingClaim (h : HostId) (i : SourceId) (k : SlotId) (x : HostId) : (issue h i k s).waitingClaim x = s.waitingClaim x := by
  simp only [State.waitingClaim, issue_waiting]
@[simp] theorem issue_port (h : HostId) (i : SourceId) (k : SlotId) (x : HostId) : (issue h i k s).port x = s.port x := by
  simp only [State.port, issue_ports]
@[simp] theorem issue_attached (h : HostId) (i : SourceId) (k : SlotId) (x : HostId) : (issue h i k s).attached x = s.attached x := by
  simp only [State.attached, State.host, issue_hosts]
@[simp] theorem issue_now (h : HostId) (i : SourceId) (k : SlotId) : (issue h i k s).now = s.now := by
  simp only [State.now, issue_clock]

/-- An accepted edge changes sources, lines, faults, drawn, atn alone. -/
theorem acceptEdge_frame (i : LineId) (b : Bool) :
    acceptEdge i b s =
      { s with
        sources := (acceptEdge i b s).sources
        lines := (acceptEdge i b s).lines
        faults := (acceptEdge i b s).faults
        drawn := (acceptEdge i b s).drawn
        atn := (acceptEdge i b s).atn } := by
  unfold acceptEdge
  rw [recomputeAtn_frame, reportEdge_frame]
  rfl
@[simp] theorem acceptEdge_sampled (i : LineId) (b : Bool) : (acceptEdge i b s).sampled = s.sampled := by
  rw [acceptEdge_frame s i b]
@[simp] theorem acceptEdge_lanes (i : LineId) (b : Bool) : (acceptEdge i b s).lanes = s.lanes := by
  rw [acceptEdge_frame s i b]
@[simp] theorem acceptEdge_hosts (i : LineId) (b : Bool) : (acceptEdge i b s).hosts = s.hosts := by
  rw [acceptEdge_frame s i b]
@[simp] theorem acceptEdge_waiting (i : LineId) (b : Bool) : (acceptEdge i b s).waiting = s.waiting := by
  rw [acceptEdge_frame s i b]
@[simp] theorem acceptEdge_rotation (i : LineId) (b : Bool) : (acceptEdge i b s).rotation = s.rotation := by
  rw [acceptEdge_frame s i b]
@[simp] theorem acceptEdge_slots (i : LineId) (b : Bool) : (acceptEdge i b s).slots = s.slots := by
  rw [acceptEdge_frame s i b]
@[simp] theorem acceptEdge_edit (i : LineId) (b : Bool) : (acceptEdge i b s).edit = s.edit := by
  rw [acceptEdge_frame s i b]
@[simp] theorem acceptEdge_ports (i : LineId) (b : Bool) : (acceptEdge i b s).ports = s.ports := by
  rw [acceptEdge_frame s i b]
@[simp] theorem acceptEdge_clock (i : LineId) (b : Bool) : (acceptEdge i b s).clock = s.clock := by
  rw [acceptEdge_frame s i b]
@[simp] theorem acceptEdge_pending (i : LineId) (b : Bool) : (acceptEdge i b s).pending = s.pending := by
  rw [acceptEdge_frame s i b]
@[simp] theorem acceptEdge_creditLimit (i : LineId) (b : Bool) (x : LaneId) : (acceptEdge i b s).creditLimit x = s.creditLimit x := by
  simp only [State.creditLimit, acceptEdge_lanes]
@[simp] theorem acceptEdge_host (i : LineId) (b : Bool) (x : HostId) : (acceptEdge i b s).host x = s.host x := by
  simp only [State.host, acceptEdge_hosts]
@[simp] theorem acceptEdge_waitingClaim (i : LineId) (b : Bool) (x : HostId) : (acceptEdge i b s).waitingClaim x = s.waitingClaim x := by
  simp only [State.waitingClaim, acceptEdge_waiting]
@[simp] theorem acceptEdge_slot (i : LineId) (b : Bool) (x : SlotId) : (acceptEdge i b s).slot x = s.slot x := by
  simp only [State.slot, acceptEdge_slots]
@[simp] theorem acceptEdge_port (i : LineId) (b : Bool) (x : HostId) : (acceptEdge i b s).port x = s.port x := by
  simp only [State.port, acceptEdge_ports]
@[simp] theorem acceptEdge_attached (i : LineId) (b : Bool) (x : HostId) : (acceptEdge i b s).attached x = s.attached x := by
  simp only [State.attached, State.host, acceptEdge_hosts]
@[simp] theorem acceptEdge_now (i : LineId) (b : Bool) : (acceptEdge i b s).now = s.now := by
  simp only [State.now, acceptEdge_clock]
@[simp] theorem acceptEdge_liveTickets (i : LineId) (b : Bool) : (acceptEdge i b s).liveTickets = s.liveTickets := by
  simp only [State.liveTickets, State.slot, acceptEdge_slots]

/-- A raw change changes sources, lines, faults, drawn, atn alone. -/
theorem rawChange_frame (i : LineId) (b : Bool) :
    rawChange i b s =
      { s with
        sources := (rawChange i b s).sources
        lines := (rawChange i b s).lines
        faults := (rawChange i b s).faults
        drawn := (rawChange i b s).drawn
        atn := (rawChange i b s).atn } := by
  unfold rawChange
  dsimp only
  split
  · rfl
  · split
    · exact acceptEdge_frame s i b
    · rfl
@[simp] theorem rawChange_sampled (i : LineId) (b : Bool) : (rawChange i b s).sampled = s.sampled := by
  rw [rawChange_frame s i b]
@[simp] theorem rawChange_lanes (i : LineId) (b : Bool) : (rawChange i b s).lanes = s.lanes := by
  rw [rawChange_frame s i b]
@[simp] theorem rawChange_hosts (i : LineId) (b : Bool) : (rawChange i b s).hosts = s.hosts := by
  rw [rawChange_frame s i b]
@[simp] theorem rawChange_waiting (i : LineId) (b : Bool) : (rawChange i b s).waiting = s.waiting := by
  rw [rawChange_frame s i b]
@[simp] theorem rawChange_rotation (i : LineId) (b : Bool) : (rawChange i b s).rotation = s.rotation := by
  rw [rawChange_frame s i b]
@[simp] theorem rawChange_slots (i : LineId) (b : Bool) : (rawChange i b s).slots = s.slots := by
  rw [rawChange_frame s i b]
@[simp] theorem rawChange_edit (i : LineId) (b : Bool) : (rawChange i b s).edit = s.edit := by
  rw [rawChange_frame s i b]
@[simp] theorem rawChange_ports (i : LineId) (b : Bool) : (rawChange i b s).ports = s.ports := by
  rw [rawChange_frame s i b]
@[simp] theorem rawChange_clock (i : LineId) (b : Bool) : (rawChange i b s).clock = s.clock := by
  rw [rawChange_frame s i b]
@[simp] theorem rawChange_pending (i : LineId) (b : Bool) : (rawChange i b s).pending = s.pending := by
  rw [rawChange_frame s i b]
@[simp] theorem rawChange_creditLimit (i : LineId) (b : Bool) (x : LaneId) : (rawChange i b s).creditLimit x = s.creditLimit x := by
  simp only [State.creditLimit, rawChange_lanes]
@[simp] theorem rawChange_host (i : LineId) (b : Bool) (x : HostId) : (rawChange i b s).host x = s.host x := by
  simp only [State.host, rawChange_hosts]
@[simp] theorem rawChange_waitingClaim (i : LineId) (b : Bool) (x : HostId) : (rawChange i b s).waitingClaim x = s.waitingClaim x := by
  simp only [State.waitingClaim, rawChange_waiting]
@[simp] theorem rawChange_slot (i : LineId) (b : Bool) (x : SlotId) : (rawChange i b s).slot x = s.slot x := by
  simp only [State.slot, rawChange_slots]
@[simp] theorem rawChange_port (i : LineId) (b : Bool) (x : HostId) : (rawChange i b s).port x = s.port x := by
  simp only [State.port, rawChange_ports]
@[simp] theorem rawChange_attached (i : LineId) (b : Bool) (x : HostId) : (rawChange i b s).attached x = s.attached x := by
  simp only [State.attached, State.host, rawChange_hosts]
@[simp] theorem rawChange_now (i : LineId) (b : Bool) : (rawChange i b s).now = s.now := by
  simp only [State.now, rawChange_clock]
@[simp] theorem rawChange_liveTickets (i : LineId) (b : Bool) : (rawChange i b s).liveTickets = s.liveTickets := by
  simp only [State.liveTickets, State.slot, rawChange_slots]

/-- A change of edit_state changes hosts alone. -/
theorem setEditState_frame (h : HostId) (e : EditState) :
    setEditState h e s =
      { s with
        hosts := (setEditState h e s).hosts } := rfl
@[simp] theorem setEditState_sources (h : HostId) (e : EditState) : (setEditState h e s).sources = s.sources := by
  rw [setEditState_frame s h e]
@[simp] theorem setEditState_lines (h : HostId) (e : EditState) : (setEditState h e s).lines = s.lines := by
  rw [setEditState_frame s h e]
@[simp] theorem setEditState_sampled (h : HostId) (e : EditState) : (setEditState h e s).sampled = s.sampled := by
  rw [setEditState_frame s h e]
@[simp] theorem setEditState_lanes (h : HostId) (e : EditState) : (setEditState h e s).lanes = s.lanes := by
  rw [setEditState_frame s h e]
@[simp] theorem setEditState_atn (h : HostId) (e : EditState) : (setEditState h e s).atn = s.atn := by
  rw [setEditState_frame s h e]
@[simp] theorem setEditState_waiting (h : HostId) (e : EditState) : (setEditState h e s).waiting = s.waiting := by
  rw [setEditState_frame s h e]
@[simp] theorem setEditState_rotation (h : HostId) (e : EditState) : (setEditState h e s).rotation = s.rotation := by
  rw [setEditState_frame s h e]
@[simp] theorem setEditState_slots (h : HostId) (e : EditState) : (setEditState h e s).slots = s.slots := by
  rw [setEditState_frame s h e]
@[simp] theorem setEditState_edit (h : HostId) (e : EditState) : (setEditState h e s).edit = s.edit := by
  rw [setEditState_frame s h e]
@[simp] theorem setEditState_faults (h : HostId) (e : EditState) : (setEditState h e s).faults = s.faults := by
  rw [setEditState_frame s h e]
@[simp] theorem setEditState_ports (h : HostId) (e : EditState) : (setEditState h e s).ports = s.ports := by
  rw [setEditState_frame s h e]
@[simp] theorem setEditState_clock (h : HostId) (e : EditState) : (setEditState h e s).clock = s.clock := by
  rw [setEditState_frame s h e]
@[simp] theorem setEditState_drawn (h : HostId) (e : EditState) : (setEditState h e s).drawn = s.drawn := by
  rw [setEditState_frame s h e]
@[simp] theorem setEditState_pending (h : HostId) (e : EditState) : (setEditState h e s).pending = s.pending := by
  rw [setEditState_frame s h e]
@[simp] theorem setEditState_source (h : HostId) (e : EditState) (x : SourceId) : (setEditState h e s).source x = s.source x := by
  simp only [State.source, setEditState_sources]
@[simp] theorem setEditState_line (h : HostId) (e : EditState) (x : LineId) : (setEditState h e s).line x = s.line x := by
  simp only [State.line, setEditState_lines]
@[simp] theorem setEditState_creditLimit (h : HostId) (e : EditState) (x : LaneId) : (setEditState h e s).creditLimit x = s.creditLimit x := by
  simp only [State.creditLimit, setEditState_lanes]
@[simp] theorem setEditState_atnOf (h : HostId) (e : EditState) (x : HostId) : (setEditState h e s).atnOf x = s.atnOf x := by
  simp only [State.atnOf, setEditState_atn]
@[simp] theorem setEditState_waitingClaim (h : HostId) (e : EditState) (x : HostId) : (setEditState h e s).waitingClaim x = s.waitingClaim x := by
  simp only [State.waitingClaim, setEditState_waiting]
@[simp] theorem setEditState_slot (h : HostId) (e : EditState) (x : SlotId) : (setEditState h e s).slot x = s.slot x := by
  simp only [State.slot, setEditState_slots]
@[simp] theorem setEditState_port (h : HostId) (e : EditState) (x : HostId) : (setEditState h e s).port x = s.port x := by
  simp only [State.port, setEditState_ports]
@[simp] theorem setEditState_now (h : HostId) (e : EditState) : (setEditState h e s).now = s.now := by
  simp only [State.now, setEditState_clock]
@[simp] theorem setEditState_liveTickets (h : HostId) (e : EditState) : (setEditState h e s).liveTickets = s.liveTickets := by
  simp only [State.liveTickets, State.slot, setEditState_slots]

/-- The end of the edit session changes hosts, edit alone. -/
theorem endSession_frame (h : HostId) :
    endSession h s =
      { s with
        hosts := (endSession h s).hosts
        edit := (endSession h s).edit } := rfl
@[simp] theorem endSession_sources (h : HostId) : (endSession h s).sources = s.sources := by
  rw [endSession_frame s h]
@[simp] theorem endSession_lines (h : HostId) : (endSession h s).lines = s.lines := by
  rw [endSession_frame s h]
@[simp] theorem endSession_sampled (h : HostId) : (endSession h s).sampled = s.sampled := by
  rw [endSession_frame s h]
@[simp] theorem endSession_lanes (h : HostId) : (endSession h s).lanes = s.lanes := by
  rw [endSession_frame s h]
@[simp] theorem endSession_atn (h : HostId) : (endSession h s).atn = s.atn := by
  rw [endSession_frame s h]
@[simp] theorem endSession_waiting (h : HostId) : (endSession h s).waiting = s.waiting := by
  rw [endSession_frame s h]
@[simp] theorem endSession_rotation (h : HostId) : (endSession h s).rotation = s.rotation := by
  rw [endSession_frame s h]
@[simp] theorem endSession_slots (h : HostId) : (endSession h s).slots = s.slots := by
  rw [endSession_frame s h]
@[simp] theorem endSession_faults (h : HostId) : (endSession h s).faults = s.faults := by
  rw [endSession_frame s h]
@[simp] theorem endSession_ports (h : HostId) : (endSession h s).ports = s.ports := by
  rw [endSession_frame s h]
@[simp] theorem endSession_clock (h : HostId) : (endSession h s).clock = s.clock := by
  rw [endSession_frame s h]
@[simp] theorem endSession_drawn (h : HostId) : (endSession h s).drawn = s.drawn := by
  rw [endSession_frame s h]
@[simp] theorem endSession_pending (h : HostId) : (endSession h s).pending = s.pending := by
  rw [endSession_frame s h]
@[simp] theorem endSession_source (h : HostId) (x : SourceId) : (endSession h s).source x = s.source x := by
  simp only [State.source, endSession_sources]
@[simp] theorem endSession_line (h : HostId) (x : LineId) : (endSession h s).line x = s.line x := by
  simp only [State.line, endSession_lines]
@[simp] theorem endSession_creditLimit (h : HostId) (x : LaneId) : (endSession h s).creditLimit x = s.creditLimit x := by
  simp only [State.creditLimit, endSession_lanes]
@[simp] theorem endSession_atnOf (h : HostId) (x : HostId) : (endSession h s).atnOf x = s.atnOf x := by
  simp only [State.atnOf, endSession_atn]
@[simp] theorem endSession_waitingClaim (h : HostId) (x : HostId) : (endSession h s).waitingClaim x = s.waitingClaim x := by
  simp only [State.waitingClaim, endSession_waiting]
@[simp] theorem endSession_slot (h : HostId) (x : SlotId) : (endSession h s).slot x = s.slot x := by
  simp only [State.slot, endSession_slots]
@[simp] theorem endSession_port (h : HostId) (x : HostId) : (endSession h s).port x = s.port x := by
  simp only [State.port, endSession_ports]
@[simp] theorem endSession_now (h : HostId) : (endSession h s).now = s.now := by
  simp only [State.now, endSession_clock]
@[simp] theorem endSession_liveTickets (h : HostId) : (endSession h s).liveTickets = s.liveTickets := by
  simp only [State.liveTickets, State.slot, endSession_slots]

/-- A change of the staged list changes edit alone. -/
theorem setStaged_frame (l : List StagedEntry) :
    setStaged l s =
      { s with
        edit := (setStaged l s).edit } := rfl
@[simp] theorem setStaged_sources (l : List StagedEntry) : (setStaged l s).sources = s.sources := by
  rw [setStaged_frame s l]
@[simp] theorem setStaged_lines (l : List StagedEntry) : (setStaged l s).lines = s.lines := by
  rw [setStaged_frame s l]
@[simp] theorem setStaged_sampled (l : List StagedEntry) : (setStaged l s).sampled = s.sampled := by
  rw [setStaged_frame s l]
@[simp] theorem setStaged_lanes (l : List StagedEntry) : (setStaged l s).lanes = s.lanes := by
  rw [setStaged_frame s l]
@[simp] theorem setStaged_hosts (l : List StagedEntry) : (setStaged l s).hosts = s.hosts := by
  rw [setStaged_frame s l]
@[simp] theorem setStaged_atn (l : List StagedEntry) : (setStaged l s).atn = s.atn := by
  rw [setStaged_frame s l]
@[simp] theorem setStaged_waiting (l : List StagedEntry) : (setStaged l s).waiting = s.waiting := by
  rw [setStaged_frame s l]
@[simp] theorem setStaged_rotation (l : List StagedEntry) : (setStaged l s).rotation = s.rotation := by
  rw [setStaged_frame s l]
@[simp] theorem setStaged_slots (l : List StagedEntry) : (setStaged l s).slots = s.slots := by
  rw [setStaged_frame s l]
@[simp] theorem setStaged_faults (l : List StagedEntry) : (setStaged l s).faults = s.faults := by
  rw [setStaged_frame s l]
@[simp] theorem setStaged_ports (l : List StagedEntry) : (setStaged l s).ports = s.ports := by
  rw [setStaged_frame s l]
@[simp] theorem setStaged_clock (l : List StagedEntry) : (setStaged l s).clock = s.clock := by
  rw [setStaged_frame s l]
@[simp] theorem setStaged_drawn (l : List StagedEntry) : (setStaged l s).drawn = s.drawn := by
  rw [setStaged_frame s l]
@[simp] theorem setStaged_pending (l : List StagedEntry) : (setStaged l s).pending = s.pending := by
  rw [setStaged_frame s l]
@[simp] theorem setStaged_source (l : List StagedEntry) (x : SourceId) : (setStaged l s).source x = s.source x := by
  simp only [State.source, setStaged_sources]
@[simp] theorem setStaged_line (l : List StagedEntry) (x : LineId) : (setStaged l s).line x = s.line x := by
  simp only [State.line, setStaged_lines]
@[simp] theorem setStaged_creditLimit (l : List StagedEntry) (x : LaneId) : (setStaged l s).creditLimit x = s.creditLimit x := by
  simp only [State.creditLimit, setStaged_lanes]
@[simp] theorem setStaged_host (l : List StagedEntry) (x : HostId) : (setStaged l s).host x = s.host x := by
  simp only [State.host, setStaged_hosts]
@[simp] theorem setStaged_atnOf (l : List StagedEntry) (x : HostId) : (setStaged l s).atnOf x = s.atnOf x := by
  simp only [State.atnOf, setStaged_atn]
@[simp] theorem setStaged_waitingClaim (l : List StagedEntry) (x : HostId) : (setStaged l s).waitingClaim x = s.waitingClaim x := by
  simp only [State.waitingClaim, setStaged_waiting]
@[simp] theorem setStaged_slot (l : List StagedEntry) (x : SlotId) : (setStaged l s).slot x = s.slot x := by
  simp only [State.slot, setStaged_slots]
@[simp] theorem setStaged_port (l : List StagedEntry) (x : HostId) : (setStaged l s).port x = s.port x := by
  simp only [State.port, setStaged_ports]
@[simp] theorem setStaged_attached (l : List StagedEntry) (x : HostId) : (setStaged l s).attached x = s.attached x := by
  simp only [State.attached, State.host, setStaged_hosts]
@[simp] theorem setStaged_now (l : List StagedEntry) : (setStaged l s).now = s.now := by
  simp only [State.now, setStaged_clock]
@[simp] theorem setStaged_liveTickets (l : List StagedEntry) : (setStaged l s).liveTickets = s.liveTickets := by
  simp only [State.liveTickets, State.slot, setStaged_slots]

/-- The beginning of a commit changes hosts, edit alone. -/
theorem beginCommit_frame (h : HostId) :
    beginCommit h s =
      { s with
        hosts := (beginCommit h s).hosts
        edit := (beginCommit h s).edit } := rfl
@[simp] theorem beginCommit_sources (h : HostId) : (beginCommit h s).sources = s.sources := by
  rw [beginCommit_frame s h]
@[simp] theorem beginCommit_lines (h : HostId) : (beginCommit h s).lines = s.lines := by
  rw [beginCommit_frame s h]
@[simp] theorem beginCommit_sampled (h : HostId) : (beginCommit h s).sampled = s.sampled := by
  rw [beginCommit_frame s h]
@[simp] theorem beginCommit_lanes (h : HostId) : (beginCommit h s).lanes = s.lanes := by
  rw [beginCommit_frame s h]
@[simp] theorem beginCommit_atn (h : HostId) : (beginCommit h s).atn = s.atn := by
  rw [beginCommit_frame s h]
@[simp] theorem beginCommit_waiting (h : HostId) : (beginCommit h s).waiting = s.waiting := by
  rw [beginCommit_frame s h]
@[simp] theorem beginCommit_rotation (h : HostId) : (beginCommit h s).rotation = s.rotation := by
  rw [beginCommit_frame s h]
@[simp] theorem beginCommit_slots (h : HostId) : (beginCommit h s).slots = s.slots := by
  rw [beginCommit_frame s h]
@[simp] theorem beginCommit_faults (h : HostId) : (beginCommit h s).faults = s.faults := by
  rw [beginCommit_frame s h]
@[simp] theorem beginCommit_ports (h : HostId) : (beginCommit h s).ports = s.ports := by
  rw [beginCommit_frame s h]
@[simp] theorem beginCommit_clock (h : HostId) : (beginCommit h s).clock = s.clock := by
  rw [beginCommit_frame s h]
@[simp] theorem beginCommit_drawn (h : HostId) : (beginCommit h s).drawn = s.drawn := by
  rw [beginCommit_frame s h]
@[simp] theorem beginCommit_pending (h : HostId) : (beginCommit h s).pending = s.pending := by
  rw [beginCommit_frame s h]
@[simp] theorem beginCommit_source (h : HostId) (x : SourceId) : (beginCommit h s).source x = s.source x := by
  simp only [State.source, beginCommit_sources]
@[simp] theorem beginCommit_line (h : HostId) (x : LineId) : (beginCommit h s).line x = s.line x := by
  simp only [State.line, beginCommit_lines]
@[simp] theorem beginCommit_creditLimit (h : HostId) (x : LaneId) : (beginCommit h s).creditLimit x = s.creditLimit x := by
  simp only [State.creditLimit, beginCommit_lanes]
@[simp] theorem beginCommit_atnOf (h : HostId) (x : HostId) : (beginCommit h s).atnOf x = s.atnOf x := by
  simp only [State.atnOf, beginCommit_atn]
@[simp] theorem beginCommit_waitingClaim (h : HostId) (x : HostId) : (beginCommit h s).waitingClaim x = s.waitingClaim x := by
  simp only [State.waitingClaim, beginCommit_waiting]
@[simp] theorem beginCommit_slot (h : HostId) (x : SlotId) : (beginCommit h s).slot x = s.slot x := by
  simp only [State.slot, beginCommit_slots]
@[simp] theorem beginCommit_port (h : HostId) (x : HostId) : (beginCommit h s).port x = s.port x := by
  simp only [State.port, beginCommit_ports]
@[simp] theorem beginCommit_now (h : HostId) : (beginCommit h s).now = s.now := by
  simp only [State.now, beginCommit_clock]
@[simp] theorem beginCommit_liveTickets (h : HostId) : (beginCommit h s).liveTickets = s.liveTickets := by
  simp only [State.liveTickets, State.slot, beginCommit_slots]

/-- One applied entry changes sources, lines, lanes alone. -/
theorem applyEntry_frame (e : StagedEntry) :
    applyEntry s e =
      { s with
        sources := (applyEntry s e).sources
        lines := (applyEntry s e).lines
        lanes := (applyEntry s e).lanes } := by
  cases e <;> rfl
@[simp] theorem applyEntry_sampled (e : StagedEntry) : (applyEntry s e).sampled = s.sampled := by
  rw [applyEntry_frame s e]
@[simp] theorem applyEntry_hosts (e : StagedEntry) : (applyEntry s e).hosts = s.hosts := by
  rw [applyEntry_frame s e]
@[simp] theorem applyEntry_atn (e : StagedEntry) : (applyEntry s e).atn = s.atn := by
  rw [applyEntry_frame s e]
@[simp] theorem applyEntry_waiting (e : StagedEntry) : (applyEntry s e).waiting = s.waiting := by
  rw [applyEntry_frame s e]
@[simp] theorem applyEntry_rotation (e : StagedEntry) : (applyEntry s e).rotation = s.rotation := by
  rw [applyEntry_frame s e]
@[simp] theorem applyEntry_slots (e : StagedEntry) : (applyEntry s e).slots = s.slots := by
  rw [applyEntry_frame s e]
@[simp] theorem applyEntry_edit (e : StagedEntry) : (applyEntry s e).edit = s.edit := by
  rw [applyEntry_frame s e]
@[simp] theorem applyEntry_faults (e : StagedEntry) : (applyEntry s e).faults = s.faults := by
  rw [applyEntry_frame s e]
@[simp] theorem applyEntry_ports (e : StagedEntry) : (applyEntry s e).ports = s.ports := by
  rw [applyEntry_frame s e]
@[simp] theorem applyEntry_clock (e : StagedEntry) : (applyEntry s e).clock = s.clock := by
  rw [applyEntry_frame s e]
@[simp] theorem applyEntry_drawn (e : StagedEntry) : (applyEntry s e).drawn = s.drawn := by
  rw [applyEntry_frame s e]
@[simp] theorem applyEntry_pending (e : StagedEntry) : (applyEntry s e).pending = s.pending := by
  rw [applyEntry_frame s e]
@[simp] theorem applyEntry_host (e : StagedEntry) (x : HostId) : (applyEntry s e).host x = s.host x := by
  simp only [State.host, applyEntry_hosts]
@[simp] theorem applyEntry_atnOf (e : StagedEntry) (x : HostId) : (applyEntry s e).atnOf x = s.atnOf x := by
  simp only [State.atnOf, applyEntry_atn]
@[simp] theorem applyEntry_waitingClaim (e : StagedEntry) (x : HostId) : (applyEntry s e).waitingClaim x = s.waitingClaim x := by
  simp only [State.waitingClaim, applyEntry_waiting]
@[simp] theorem applyEntry_slot (e : StagedEntry) (x : SlotId) : (applyEntry s e).slot x = s.slot x := by
  simp only [State.slot, applyEntry_slots]
@[simp] theorem applyEntry_port (e : StagedEntry) (x : HostId) : (applyEntry s e).port x = s.port x := by
  simp only [State.port, applyEntry_ports]
@[simp] theorem applyEntry_attached (e : StagedEntry) (x : HostId) : (applyEntry s e).attached x = s.attached x := by
  simp only [State.attached, State.host, applyEntry_hosts]
@[simp] theorem applyEntry_now (e : StagedEntry) : (applyEntry s e).now = s.now := by
  simp only [State.now, applyEntry_clock]
@[simp] theorem applyEntry_liveTickets (e : StagedEntry) : (applyEntry s e).liveTickets = s.liveTickets := by
  simp only [State.liveTickets, State.slot, applyEntry_slots]

/-- A run of level checks changes sources alone. -/
theorem checks_frame (c : List SourceId) :
    c.foldl (fun x i => levelCheck i x) s = { s with sources := (c.foldl (fun x i => levelCheck i x) s).sources } := by
  induction c generalizing s with
  | nil => rfl
  | cons i rest ih =>
    rw [List.foldl_cons, ih, levelCheck_frame]

/-- A run of applied entries changes sources, lines and lanes alone. -/
theorem entries_frame (l : List StagedEntry) :
    l.foldl applyEntry s =
      { s with
        sources := (l.foldl applyEntry s).sources
        lines := (l.foldl applyEntry s).lines
        lanes := (l.foldl applyEntry s).lanes } := by
  induction l generalizing s with
  | nil => rfl
  | cons e rest ih =>
    rw [List.foldl_cons, ih, applyEntry_frame]

/-- An applied list changes sources, lines, lanes alone. -/
theorem applyAll_frame (l : List StagedEntry) :
    applyAll l s =
      { s with
        sources := (applyAll l s).sources
        lines := (applyAll l s).lines
        lanes := (applyAll l s).lanes } := by
  unfold applyAll
  generalize l.filterMap (checkAfter s) = c
  rw [checks_frame, entries_frame]
@[simp] theorem applyAll_sampled (l : List StagedEntry) : (applyAll l s).sampled = s.sampled := by
  rw [applyAll_frame s l]
@[simp] theorem applyAll_hosts (l : List StagedEntry) : (applyAll l s).hosts = s.hosts := by
  rw [applyAll_frame s l]
@[simp] theorem applyAll_atn (l : List StagedEntry) : (applyAll l s).atn = s.atn := by
  rw [applyAll_frame s l]
@[simp] theorem applyAll_waiting (l : List StagedEntry) : (applyAll l s).waiting = s.waiting := by
  rw [applyAll_frame s l]
@[simp] theorem applyAll_rotation (l : List StagedEntry) : (applyAll l s).rotation = s.rotation := by
  rw [applyAll_frame s l]
@[simp] theorem applyAll_slots (l : List StagedEntry) : (applyAll l s).slots = s.slots := by
  rw [applyAll_frame s l]
@[simp] theorem applyAll_edit (l : List StagedEntry) : (applyAll l s).edit = s.edit := by
  rw [applyAll_frame s l]
@[simp] theorem applyAll_faults (l : List StagedEntry) : (applyAll l s).faults = s.faults := by
  rw [applyAll_frame s l]
@[simp] theorem applyAll_ports (l : List StagedEntry) : (applyAll l s).ports = s.ports := by
  rw [applyAll_frame s l]
@[simp] theorem applyAll_clock (l : List StagedEntry) : (applyAll l s).clock = s.clock := by
  rw [applyAll_frame s l]
@[simp] theorem applyAll_drawn (l : List StagedEntry) : (applyAll l s).drawn = s.drawn := by
  rw [applyAll_frame s l]
@[simp] theorem applyAll_pending (l : List StagedEntry) : (applyAll l s).pending = s.pending := by
  rw [applyAll_frame s l]
@[simp] theorem applyAll_host (l : List StagedEntry) (x : HostId) : (applyAll l s).host x = s.host x := by
  simp only [State.host, applyAll_hosts]
@[simp] theorem applyAll_atnOf (l : List StagedEntry) (x : HostId) : (applyAll l s).atnOf x = s.atnOf x := by
  simp only [State.atnOf, applyAll_atn]
@[simp] theorem applyAll_waitingClaim (l : List StagedEntry) (x : HostId) : (applyAll l s).waitingClaim x = s.waitingClaim x := by
  simp only [State.waitingClaim, applyAll_waiting]
@[simp] theorem applyAll_slot (l : List StagedEntry) (x : SlotId) : (applyAll l s).slot x = s.slot x := by
  simp only [State.slot, applyAll_slots]
@[simp] theorem applyAll_port (l : List StagedEntry) (x : HostId) : (applyAll l s).port x = s.port x := by
  simp only [State.port, applyAll_ports]
@[simp] theorem applyAll_attached (l : List StagedEntry) (x : HostId) : (applyAll l s).attached x = s.attached x := by
  simp only [State.attached, State.host, applyAll_hosts]
@[simp] theorem applyAll_now (l : List StagedEntry) : (applyAll l s).now = s.now := by
  simp only [State.now, applyAll_clock]
@[simp] theorem applyAll_liveTickets (l : List StagedEntry) : (applyAll l s).liveTickets = s.liveTickets := by
  simp only [State.liveTickets, State.slot, applyAll_slots]

end Sys2Proof.Machine
end

