-- ==== Sys2Proof/Laws/Ops.lean ====
section
/-! SUPPORT. What each shared operation can do, said once: the free order, the ticket table's look-ups, one source
record's changes, the level check, the store of a fault record, the recomputation of ATN, the port of a request. -/

namespace Sys2Proof.Machine

/-! ## The free order -/

theorem insertAt_perm {α : Type} (n : Nat) (x : α) (l : List α) : (insertAt n x l).Perm (x :: l) := by
  induction l generalizing n with
  | nil => simp [insertAt]
  | cons y ys ih =>
    cases n with
    | zero => exact List.Perm.refl _
    | succ m => exact ((ih m).cons y).trans (List.Perm.swap x y ys)

/-- The free order is an order of the same list, whatever the free values are. -/
theorem freeOrder_perm {α : Type} (n : Nat) (l : List α) : (freeOrder n l).Perm l := by
  induction l generalizing n with
  | nil => exact List.Perm.refl _
  | cons x xs ih => exact (insertAt_perm _ x _).trans ((ih (n + 1)).cons x)

@[simp] theorem mem_freeOrder {α : Type} (n : Nat) (l : List α) (x : α) : x ∈ freeOrder n l ↔ x ∈ l :=
  (freeOrder_perm n l).mem_iff

/-! ## The ticket table -/

/-- A live ticket is the ticket of some slot. -/
theorem mem_liveTickets {s : State} {t : Ticket} : t ∈ s.liveTickets ↔ ∃ k, (s.slot k).ticket = some t := by
  simp [State.liveTickets, allSlots]

theorem holds_iff {s : State} {i : SourceId} {h : HostId} :
    s.holds i h = true ↔ ∃ k t, (s.slot k).ticket = some t ∧ t.source = i ∧ t.host = h := by
  simp only [State.holds, List.any_eq_true, Bool.and_eq_true, beq_iff_eq]
  constructor
  · rintro ⟨t, ht, hi, hh⟩
    obtain ⟨k, hk⟩ := mem_liveTickets.mp ht
    exact ⟨k, t, hk, hi, hh⟩
  · rintro ⟨k, t, hk, hi, hh⟩
    exact ⟨t, mem_liveTickets.mpr ⟨k, hk⟩, hi, hh⟩

theorem sourceTicket_eq_some {s : State} {i : SourceId} {t : Ticket} (h : s.sourceTicket i = some t) :
    t.source = i ∧ ∃ k, (s.slot k).ticket = some t := by
  have hm := List.mem_of_find?_eq_some h
  have hp := List.find?_some h
  exact ⟨by simpa using hp, mem_liveTickets.mp hm⟩

theorem sourceTicket_eq_none {s : State} {i : SourceId} :
    s.sourceTicket i = none ↔ ∀ k t, (s.slot k).ticket = some t → t.source ≠ i := by
  simp only [State.sourceTicket, List.find?_eq_none, beq_iff_eq]
  constructor
  · intro h k t hk
    exact h t (mem_liveTickets.mpr ⟨k, hk⟩)
  · intro h t ht
    obtain ⟨k, hk⟩ := mem_liveTickets.mp ht
    exact h k t hk

/-- What the test of R66 establishes about a number that is live. -/
theorem findLive_eq_some {s : State} {n : Word} {t : Ticket} (h : s.findLive n = some t) :
    (s.slot (slotOf n)).ticket = some t ∧ sequenceOf n ≠ 0 ∧ sequenceOf t.number = sequenceOf n := by
  unfold State.findLive at h
  split at h
  · rename_i u hu
    split at h
    · rename_i hc
      cases h
      exact ⟨hu, hc.1, hc.2⟩
    · cases h
  · cases h

theorem findLive_of_slot {s : State} {n : Word} {t : Ticket} (h : (s.slot (slotOf n)).ticket = some t)
    (h0 : sequenceOf n ≠ 0) (hs : sequenceOf t.number = sequenceOf n) : s.findLive n = some t := by
  simpa [State.findLive, h, hs] using h0

/-- The lowest free slot is free, and every lower one is occupied (R67). -/
theorem lowestFree_eq_some {s : State} {k : SlotId} (h : s.lowestFree = some k) :
    (s.slot k).ticket = none ∧ ∀ j < k, (s.slot j).ticket ≠ none := by
  unfold State.lowestFree allSlots at h
  have hk := List.find?_some h
  refine ⟨by simpa using hk, fun j hj => ?_⟩
  obtain ⟨_, as, bs, heq, hno⟩ := List.find?_eq_some_iff_append.mp h
  have hs : (List.finRange 32).Pairwise (· < ·) := by decide
  rw [heq] at hs
  have hmem : j ∈ as ++ k :: bs := heq ▸ List.mem_finRange j
  have has : j ∈ as := by
    rcases List.mem_append.mp hmem with hm | hm
    · exact hm
    · exfalso
      rcases List.mem_cons.mp hm with rfl | hm
      · exact absurd hj (lt_irrefl _)
      · have := (List.pairwise_append.mp hs).2.1
        have hlt := (List.pairwise_cons.mp this).1 j hm
        exact absurd hj (not_lt.mpr (le_of_lt hlt))
  have := hno j has
  intro hnone
  simp [hnone] at this

theorem lowestFree_eq_none {s : State} : s.lowestFree = none ↔ ∀ k, (s.slot k).ticket ≠ none := by
  simp [State.lowestFree, allSlots, Option.isNone_iff_eq_none]

@[simp] theorem freeSlot_slot (s : State) (k j : SlotId) :
    (freeSlot k s).slot j = if k = j then { s.slot k with ticket := none } else s.slot j := by
  simp [freeSlot, State.setSlot_slot]

/-- Setting one slot changes a count over the live tickets by what that slot held and holds. -/
theorem countP_liveTickets_setSlot (s : State) (k : SlotId) (y : Slot) (p : Ticket → Bool) :
    (s.setSlot k y).liveTickets.countP p + ((s.slot k).ticket.elim 0 fun t => if p t then 1 else 0) =
      s.liveTickets.countP p + (y.ticket.elim 0 fun t => if p t then 1 else 0) := by
  have aux : ∀ l : List SlotId, l.Nodup →
      (l.filterMap fun j => ((s.setSlot k y).slot j).ticket).countP p +
          (if k ∈ l then ((s.slot k).ticket.elim 0 fun t => if p t then 1 else 0) else 0) =
        (l.filterMap fun j => (s.slot j).ticket).countP p +
          (if k ∈ l then (y.ticket.elim 0 fun t => if p t then 1 else 0) else 0) := by
    intro l
    induction l with
    | nil => intro _; rfl
    | cons j rest ih =>
      intro hn
      obtain ⟨hj, hrest⟩ := List.nodup_cons.mp hn
      have hi := ih hrest
      by_cases hkj : k = j
      · subst hkj
        simp only [hj, if_false, Nat.add_zero] at hi
        simp only [List.filterMap_cons, State.setSlot_slot_self, List.mem_cons, true_or, if_true]
        cases h1 : y.ticket <;> cases h2 : (s.slot k).ticket <;>
          (simp [List.countP_cons, hi]; try omega)
      · simp only [List.filterMap_cons, State.setSlot_slot_ne s k y j hkj, List.mem_cons, hkj, false_or]
        cases h2 : (s.slot j).ticket
        · simpa using hi
        · simp only [List.countP_cons]
          omega
  have h := aux allSlots (List.nodup_finRange 32)
  simpa [State.liveTickets, allSlots] using h

/-! ## One source record -/

@[simp] theorem markerOf_setMarker (r : Source) (h x : HostId) (m : Marker) :
    (r.setMarker h m).markerOf x = if h = x then m else r.markerOf x := by
  simp only [Source.setMarker, Source.markerOf]
  exact getElem_set_fin _ _ _ _

@[simp] theorem markerOf_mapMarkers (r : Source) (f : HostId → Marker → Marker) (x : HostId) :
    (r.mapMarkers f).markerOf x = f x (r.markerOf x) := by
  simp [Source.mapMarkers, Source.markerOf]

@[simp] theorem attemptsOf_setAttemptsOf (r : Source) (h x : HostId) (n : Nat) :
    (r.setAttemptsOf h n).attemptsOf x = if h = x then n else r.attemptsOf x := by
  simp only [Source.setAttemptsOf, Source.attemptsOf]
  exact getElem_set_fin _ _ _ _

@[simp] theorem attemptsOf_clearAttempts (r : Source) (x : HostId) : r.clearAttempts.attemptsOf x = 0 := by
  simp [Source.clearAttempts, Source.attemptsOf]

section SourceFields

variable (r : Source) (h x : HostId) (m : Marker) (n : Nat) (f : HostId → Marker → Marker)

@[simp] theorem setMarker_config : (r.setMarker h m).config = r.config := rfl
@[simp] theorem setMarker_state : (r.setMarker h m).state = r.state := rfl
@[simp] theorem setMarker_pendingCount : (r.setMarker h m).pendingCount = r.pendingCount := rfl
@[simp] theorem setMarker_overflowMark : (r.setMarker h m).overflowMark = r.overflowMark := rfl
@[simp] theorem setMarker_attempts : (r.setMarker h m).attempts = r.attempts := rfl
@[simp] theorem setMarker_argQueue : (r.setMarker h m).argQueue = r.argQueue := rfl
@[simp] theorem setMarker_mailbox : (r.setMarker h m).mailbox = r.mailbox := rfl
@[simp] theorem setMarker_attemptsOf : (r.setMarker h m).attemptsOf x = r.attemptsOf x := rfl
@[simp] theorem setAttemptsOf_config : (r.setAttemptsOf h n).config = r.config := rfl
@[simp] theorem setAttemptsOf_state : (r.setAttemptsOf h n).state = r.state := rfl
@[simp] theorem setAttemptsOf_pendingCount : (r.setAttemptsOf h n).pendingCount = r.pendingCount := rfl
@[simp] theorem setAttemptsOf_overflowMark : (r.setAttemptsOf h n).overflowMark = r.overflowMark := rfl
@[simp] theorem setAttemptsOf_attempts : (r.setAttemptsOf h n).attempts = r.attempts := rfl
@[simp] theorem setAttemptsOf_argQueue : (r.setAttemptsOf h n).argQueue = r.argQueue := rfl
@[simp] theorem setAttemptsOf_mailbox : (r.setAttemptsOf h n).mailbox = r.mailbox := rfl
@[simp] theorem setAttemptsOf_markerOf : (r.setAttemptsOf h n).markerOf x = r.markerOf x := rfl
@[simp] theorem mapMarkers_config : (r.mapMarkers f).config = r.config := rfl
@[simp] theorem mapMarkers_state : (r.mapMarkers f).state = r.state := rfl
@[simp] theorem mapMarkers_pendingCount : (r.mapMarkers f).pendingCount = r.pendingCount := rfl
@[simp] theorem mapMarkers_overflowMark : (r.mapMarkers f).overflowMark = r.overflowMark := rfl
@[simp] theorem mapMarkers_attempts : (r.mapMarkers f).attempts = r.attempts := rfl
@[simp] theorem mapMarkers_argQueue : (r.mapMarkers f).argQueue = r.argQueue := rfl
@[simp] theorem mapMarkers_mailbox : (r.mapMarkers f).mailbox = r.mailbox := rfl
@[simp] theorem mapMarkers_attemptsOf : (r.mapMarkers f).attemptsOf x = r.attemptsOf x := rfl
@[simp] theorem clearAttempts_config : r.clearAttempts.config = r.config := rfl
@[simp] theorem clearAttempts_state : r.clearAttempts.state = r.state := rfl
@[simp] theorem clearAttempts_pendingCount : r.clearAttempts.pendingCount = r.pendingCount := rfl
@[simp] theorem clearAttempts_overflowMark : r.clearAttempts.overflowMark = r.overflowMark := rfl
@[simp] theorem clearAttempts_attempts : r.clearAttempts.attempts = 0 := rfl
@[simp] theorem clearAttempts_argQueue : r.clearAttempts.argQueue = r.argQueue := rfl
@[simp] theorem clearAttempts_mailbox : r.clearAttempts.mailbox = r.mailbox := rfl
@[simp] theorem clearAttempts_markerOf : r.clearAttempts.markerOf x = r.markerOf x := rfl

end SourceFields

/-- Two source records with the same fields, host by host, are the same. -/
theorem source_ext {a b : Source} (hc : a.config = b.config) (hs : a.state = b.state)
    (hp : a.pendingCount = b.pendingCount) (ho : a.overflowMark = b.overflowMark) (ha : a.attempts = b.attempts)
    (hq : a.argQueue = b.argQueue) (hm : a.mailbox = b.mailbox) (hk : ∀ h : HostId, a.markerOf h = b.markerOf h)
    (hn : ∀ h : HostId, a.attemptsOf h = b.attemptsOf h) : a = b := by
  cases a
  cases b
  simp only [Source.markerOf, Source.attemptsOf] at hk hn
  simp only [Source.mk.injEq]
  exact ⟨hc, hs, hp, ho, ha, hq, hm, Vector.ext fun i hi => hk ⟨i, hi⟩, Vector.ext fun i hi => hn ⟨i, hi⟩⟩

/-- R12 and R13: an occurrence is counted below the cap; at the cap it is lost, and sets a clear mark. -/
theorem countOccurrence_cases (c : Nat) (r : Source) :
    (r.pendingCount + c < 15 ∧ countOccurrence c r = ({ r with pendingCount := r.pendingCount + 1 }, false)) ∨
    (¬ r.pendingCount + c < 15 ∧ r.overflowMark = true ∧ countOccurrence c r = (r, false)) ∨
    (¬ r.pendingCount + c < 15 ∧ r.overflowMark = false ∧
      countOccurrence c r = ({ r with overflowMark := true }, true)) := by
  unfold countOccurrence Config.countCap
  by_cases h : r.pendingCount + c < 15
  · simp [h]
  · cases ho : r.overflowMark <;> simp [h]

@[simp] theorem markHosts_markerOf (s : State) (also : HostId → Bool) (r : Source) (x : HostId) :
    (markHosts s also r).markerOf x =
      if (hasHost r.config.hostSet x && s.attached x && also x) = true then (r.markerOf x).mark else r.markerOf x := by
  simp [markHosts]

@[simp] theorem oweClear_markerOf (s : State) (only : HostId → Bool) (r : Source) (x : HostId) :
    (oweClear s only r).markerOf x =
      if (hasHost r.config.hostSet x && s.attached x && only x && r.markerOf x == .clear) = true then .owed
      else r.markerOf x := by
  simp [oweClear]

/-- An update of source `i` leaves every other source as it was. -/
theorem setSource_other (s : State) {i j : SourceId} (r : Source) (h : i ≠ j) :
    (s.setSource i r).source j = s.source j := State.setSource_source_ne s i r j h

/-! ## The level check -/

/-- What the level check of source `i` can do: nothing, or generate the occurrence of R15, or the OWED markers of
R16. -/
theorem levelCheck_cases (i : SourceId) (s : State) :
    levelCheck i s = s ∨
    ((s.source i).state = .armed ∧ levelActive s i = true ∧ (s.source i).config.mode = .one ∧
      (s.source i).pendingCount = 0 ∧ s.sourceTicket i = none ∧
      levelCheck i s = s.setSource i { s.source i with pendingCount := 1 }) ∨
    ((s.source i).state = .armed ∧ levelActive s i = true ∧ (s.source i).config.mode = .each ∧
      levelCheck i s = s.setSource i (oweClear s (fun _ => true) (s.source i))) := by
  unfold levelCheck
  dsimp only
  split
  · rename_i hc
    split
    · rename_i hm
      split
      · rename_i hp
        exact Or.inr (Or.inl ⟨hc.1, hc.2, hm, hp.1, hp.2, rfl⟩)
      · exact Or.inl rfl
    · rename_i hm
      exact Or.inr (Or.inr ⟨hc.1, hc.2, hm, rfl⟩)
  · exact Or.inl rfl

/-- The level check of one source leaves every other source as it was. -/
theorem levelCheck_other (s : State) {i j : SourceId} (h : i ≠ j) : (levelCheck i s).source j = s.source j := by
  rcases levelCheck_cases i s with h0 | ⟨_, _, _, _, _, h1⟩ | ⟨_, _, _, h2⟩
  · rw [h0]
  · rw [h1, setSource_other s _ h]
  · rw [h2, setSource_other s _ h]

/-- A source whose level is not active is left as it was by its level check. -/
theorem levelCheck_of_not_active {s : State} {i : SourceId} (h : levelActive s i = false) : levelCheck i s = s := by
  simp [levelCheck, h]

/-- The level check keeps a source's configuration and state. -/
@[simp] theorem levelCheck_config (i j : SourceId) (s : State) :
    ((levelCheck i s).source j).config = (s.source j).config := by
  by_cases hij : i = j
  · subst hij
    rcases levelCheck_cases i s with h0 | ⟨_, _, _, _, _, h1⟩ | ⟨_, _, _, h2⟩
    · rw [h0]
    · rw [h1, State.setSource_source_self]
    · rw [h2, State.setSource_source_self]
      rfl
  · rw [levelCheck_other s hij]

@[simp] theorem levelCheck_state (i j : SourceId) (s : State) :
    ((levelCheck i s).source j).state = (s.source j).state := by
  by_cases hij : i = j
  · subst hij
    rcases levelCheck_cases i s with h0 | ⟨_, _, _, _, _, h1⟩ | ⟨_, _, _, h2⟩
    · rw [h0]
    · rw [h1, State.setSource_source_self]
    · rw [h2, State.setSource_source_self]
      rfl
  · rw [levelCheck_other s hij]

/-! ## Fault records and notices -/

/-- What a notice can do: nothing to S63 unless it is ARMED, and to no other source (R20). -/
theorem takeNotice_cases (s : State) :
    ((s.source noticeSource).state ≠ .armed ∧ takeNotice s = s) ∨
    ((s.source noticeSource).state = .armed ∧ (s.source noticeSource).config.mode = .one ∧
      takeNotice s = s.setSource noticeSource (countOccurrence (s.coveredBy noticeSource) (s.source noticeSource)).1) ∨
    ((s.source noticeSource).state = .armed ∧ (s.source noticeSource).config.mode = .each ∧
      takeNotice s = s.setSource noticeSource (markHosts s (fun _ => true) (s.source noticeSource))) := by
  unfold takeNotice
  dsimp only
  split
  · rename_i ha
    split
    · rename_i hm
      exact Or.inr (Or.inl ⟨ha, hm, rfl⟩)
    · rename_i hm
      exact Or.inr (Or.inr ⟨ha, hm, rfl⟩)
  · rename_i ha
    exact Or.inl ⟨ha, rfl⟩

theorem takeNotice_other (s : State) {j : SourceId} (h : noticeSource ≠ j) : (takeNotice s).source j = s.source j := by
  rcases takeNotice_cases s with ⟨_, h0⟩ | ⟨_, _, h1⟩ | ⟨_, _, h2⟩
  · rw [h0]
  · rw [h1, setSource_other s _ h]
  · rw [h2, setSource_other s _ h]

/-- The fault queue after a store (R142). -/
@[simp] theorem storeFault_faults (c : FaultCause) (s : State) :
    (storeFault c s).faults = s.faults.store s.now c := by
  simp [storeFault]

/-- A store changes no source but S63 (R143). -/
theorem storeFault_other (c : FaultCause) (s : State) {j : SourceId} (h : noticeSource ≠ j) :
    (storeFault c s).source j = s.source j := by
  rw [storeFault, takeNotice_other _ h, State.setFaults_source]

/-- A store leaves at most 16 records where there were at most 16 (R140). -/
theorem store_length {q : FaultQueue} (h : q.records.length ≤ 16) (now : Millis) (c : FaultCause) :
    (q.store now c).records.length ≤ 16 := by
  unfold FaultQueue.store Config.faultCap
  dsimp only
  by_cases hf : 16 ≤ q.records.length
  · simp [hf]; omega
  · simp [hf]; omega

theorem advanceSeq_ne_zero (n : Word) : advanceSeq n ≠ 0 := by
  unfold advanceSeq
  split
  · decide
  · rename_i h
    intro hz
    apply h
    have : n = 0 - 1 := by rw [← hz]; simp
    rw [this]; decide

theorem advanceSequence_ne_zero (n : BitVec 11) : advanceSequence n ≠ 0 := by
  unfold advanceSequence
  split
  · decide
  · rename_i h
    intro hz
    apply h
    have : n = 0 - 1 := by rw [← hz]; simp
    rw [this]; decide

/-! ## Attention -/

/-- The ATN outputs after a recomputation are those R49 gives. -/
@[simp] theorem recomputeAtn_atnOf (s : State) (h : HostId) : (recomputeAtn s).atnOf h = atnLevel s h := by
  simp [recomputeAtn, State.setAtn, State.atnOf]

/-- Deliverability reads the sources, the hosts, the lanes and the slots, and nothing else (R47). -/
theorem atnLevel_congr {s t : State} (h1 : s.sources = t.sources) (h2 : s.hosts = t.hosts) (h3 : s.lanes = t.lanes)
    (h4 : s.slots = t.slots) (h : HostId) : atnLevel s h = atnLevel t h := by
  cases s
  cases t
  cases h1
  cases h2
  cases h3
  cases h4
  rfl

/-! ## Ports -/

/-- The idle deadline that a taken request of the holder restarts (R127). -/
theorem touchIdle_cases (h : HostId) (s : State) :
    (s.edit.holder = some h ∧ s.edit.commitInFlight = false ∧
      (touchIdle h s).edit = { s.edit with idleDeadline := some (msAfter s.now 250) }) ∨
    (¬ (s.edit.holder = some h ∧ s.edit.commitInFlight = false) ∧ (touchIdle h s).edit = s.edit) := by
  unfold touchIdle Config.idleTime
  split
  · rename_i hc
    exact Or.inl ⟨hc.1, hc.2, rfl⟩
  · rename_i hc
    exact Or.inr ⟨hc, rfl⟩

@[simp] theorem formAnswer_port (h : HostId) (a : Answer) (s : State) (x : HostId) :
    (formAnswer h a s).port x = if h = x then (s.port h).answer a (answerFlags s h) else s.port x := by
  simp [formAnswer, State.setPort_port]

/-- A window is ignored in a reset, in DOWN, and where it was open at the end of either (R148, R156, R159). -/
theorem windowIgnored_eq_false {s : State} {h : HostId} :
    windowIgnored s h = false ↔ s.sampled = true ∧ (s.port h).state ≠ .down ∧ (s.port h).ignoring = false := by
  unfold windowIgnored
  cases s.sampled <;> cases (s.port h).ignoring <;> simp

@[simp] theorem ignoreWindow_port (h : HostId) (s : State) (x : HostId) :
    (ignoreWindow h s).port x = if h = x then (s.port h).endIgnored else s.port x := by
  simp [ignoreWindow, State.setPort_port]

/-- What a request window can do: be ignored, set refused on a WORKING port, and else be passed on (R148, R153,
R154). -/
theorem request_cases (h : HostId) (n : Nat) (take : State → State) (s : State) :
    (windowIgnored s h = true ∧ request h n take s = ignoreWindow h s) ∨
    (windowIgnored s h = false ∧ (s.port h).state = .working ∧
      request h n take s = s.setPort h ((s.port h).putZeros (n + 3)).refuse) ∨
    (windowIgnored s h = false ∧ (s.port h).state ≠ .working ∧
      request h n take s =
        take (s.setPort h ((((s.port h).putZeros (n + 3)).openRequest.disposeAnswer).passOn))) := by
  unfold request frameOverhead
  dsimp only
  split
  · rename_i hi
    exact Or.inl ⟨hi, rfl⟩
  · rename_i hi
    split
    · rename_i hw
      exact Or.inr (Or.inl ⟨by simpa using hi, hw, rfl⟩)
    · rename_i hw
      exact Or.inr (Or.inr ⟨by simpa using hi, hw, rfl⟩)

@[simp] theorem putZeros_state (p : Port) (n : Nat) : (p.putZeros n).state = p.state := rfl
@[simp] theorem putZeros_prevUnread (p : Port) (n : Nat) : (p.putZeros n).prevUnread = p.prevUnread := rfl
@[simp] theorem putZeros_refused (p : Port) (n : Nat) : (p.putZeros n).refused = p.refused := rfl
@[simp] theorem putZeros_ignoring (p : Port) (n : Nat) : (p.putZeros n).ignoring = p.ignoring := rfl
@[simp] theorem putZeros_answerBuffer (p : Port) (n : Nat) : (p.putZeros n).answerBuffer = p.answerBuffer := rfl
@[simp] theorem putZeros_shiftedOut (p : Port) (n : Nat) :
    (p.putZeros n).shiftedOut = List.replicate (n + 1) 0 := rfl

/-- A port that held no answer is passed on with its flags as they were. -/
theorem passOn_idle {p : Port} (h : p.state = .idle) :
    (p.openRequest.disposeAnswer).passOn = { p with state := .working, priorState := none, receiveBuffer := [] } := by
  simp [Port.openRequest, h, Port.disposeAnswer, Port.passOn]

/-- A port that held an unread answer is passed on with the answer emptied and prev_unread yes (R151). -/
theorem passOn_answered {p : Port} (h : p.state = .answered) :
    (p.openRequest.disposeAnswer).passOn =
      { p with
        state := .working, priorState := none, receiveBuffer := [], answerBuffer := [], prevUnread := true } := by
  simp [Port.openRequest, h, Port.disposeAnswer, Port.passOn]

/-! ## The staged list -/

/-- The position of a target is that of an entry for it, and no earlier entry is for it. -/
theorem positionOf_eq_some {t : Target} {l : List StagedEntry} {p : Nat} (h : positionOf t l = some p) :
    ∃ e, l[p]? = some e ∧ e.target = t ∧ ∀ j < p, ∀ x, l[j]? = some x → x.target ≠ t := by
  induction l generalizing p with
  | nil => cases h
  | cons e rest ih =>
    unfold positionOf at h
    split at h
    · rename_i he
      cases h
      exact ⟨e, rfl, he, fun j hj => absurd hj (Nat.not_lt_zero j)⟩
    · rename_i he
      cases hr : positionOf t rest with
      | none => simp [hr] at h
      | some q =>
        simp [hr] at h
        subst h
        obtain ⟨x, hx, hxt, hlow⟩ := ih hr
        refine ⟨x, by simpa using hx, hxt, fun j hj y hy => ?_⟩
        cases j with
        | zero => simp at hy; subst hy; exact he
        | succ m => exact hlow m (by omega) y (by simpa using hy)

theorem positionOf_eq_none {t : Target} {l : List StagedEntry} :
    positionOf t l = none ↔ ∀ e ∈ l, e.target ≠ t := by
  induction l with
  | nil => simp [positionOf]
  | cons e rest ih =>
    unfold positionOf
    split
    · rename_i he
      simp [he]
    · rename_i he
      simp [he, ih]

/-! ## The line report -/

/-- An edge occurrence, and so an edge report to one source, leaves every other source as it was (R32). -/
theorem edgeOccurrence_other (s : State) {i j : SourceId} (h : i ≠ j) :
    (edgeOccurrence i s).1.source j = s.source j := by
  unfold edgeOccurrence
  dsimp only
  split <;> exact setSource_other s _ h

theorem reactToEdge_other (b : Bool) (s : State) {i j : SourceId} (h : i ≠ j) :
    (reactToEdge b i s).1.source j = s.source j := by
  unfold reactToEdge
  dsimp only
  split
  · split <;> (try split) <;>
      first
      | rfl
      | exact edgeOccurrence_other s h
      | exact levelCheck_other s h
  · rfl

/-- A source that the list does not name is left as it was by the list's reports. -/
theorem reportTo_other (b : Bool) (l : List SourceId) (s : State) {j : SourceId} (h : j ∉ l) :
    (reportTo b l s).1.source j = s.source j := by
  induction l generalizing s with
  | nil => rfl
  | cons i rest ih =>
    simp only [List.mem_cons, not_or] at h
    simp only [reportTo]
    rw [ih _ h.2, reactToEdge_other b s (Ne.symm h.1)]

theorem storeOverflows_other (l : List SourceId) (s : State) {j : SourceId} (h : noticeSource ≠ j) :
    (storeOverflows l s).source j = s.source j := by
  induction l generalizing s with
  | nil => rfl
  | cons i rest ih => rw [storeOverflows, ih, storeFault_other _ _ h]

end Sys2Proof.Machine
end

