-- ==== Sys2Proof/Laws/PerInstr.lean ====
section
/-! SUPPORT. A family proved command by command: a well-formed request spells operands of a length that R161 admits,
and a frame of 3 to 43 bytes (R150). -/

namespace Sys2Proof.Laws.FrameFits

/-- A command that is a request and is well formed spells a frame that the port finds neither too short nor too long,
with operands of an admitted length. -/
def Statement (i : Instr) : Prop :=
  ∀ h code operands, requestParts i = some (h, code, operands) → i.wellFormed = true →
    lengthAllowed code operands = some true ∧
      3 ≤ (requestFrame code operands).length ∧ (requestFrame code operands).length ≤ 43

/-- The length of a request's frame is that of its operands and three bytes more. -/
theorem length_requestFrame (code : Byte) (operands : List Byte) :
    (requestFrame code operands).length = operands.length + 3 := by
  simp [requestFrame]

/-- A command that is no request spells no frame. -/
theorem of_no_request {i : Instr} (hn : requestParts i = none) : Statement i := by
  intro h code operands hp
  rw [hn] at hp
  cases hp

/-- A request whose operands have an admitted length of at most 40 bytes. -/
theorem of_parts {i : Instr} {x : HostId × Byte × List Byte} (hp : requestParts i = some x)
    (ha : lengthAllowed x.2.1 x.2.2 = some true) (hl : x.2.2.length ≤ 40) : Statement i := by
  intro h code operands hq _
  rw [hp] at hq
  cases hq
  rw [length_requestFrame]
  dsimp only at ha hl
  exact ⟨ha, by omega, by omega⟩

/-- An admitted length of EDIT_STAGE's operands is at most 11. -/
theorem stageLength_le {operands : List Byte} (h : stageLengthAllowed operands = true) : operands.length ≤ 11 := by
  unfold stageLengthAllowed at h
  split at h
  · cases h
  · split at h
    · simp_all
    · split at h
      · simp_all
      · split at h
        · simp_all
        · simp only [Bool.or_eq_true, beq_iff_eq] at h
          omega

theorem attach (h : HostId) (mask : LaneMask) : Statement (.attach h mask) :=
  of_parts rfl rfl (by simp)

theorem detach (h : HostId) : Statement (.detach h) :=
  of_parts rfl rfl (by simp)

theorem setMask (h : HostId) (mask : LaneMask) : Statement (.setMask h mask) :=
  of_parts rfl rfl (by simp)

theorem claim (h : HostId) (laneChoice : Byte) : Statement (.claim h laneChoice) :=
  of_parts rfl rfl (by simp)

theorem claimTaken : Statement .claimTaken := of_no_request rfl

theorem done (h : HostId) (number : Word) : Statement (.done h number) :=
  of_parts rfl rfl (by simp [wordBytes])

theorem defer (h : HostId) (number : Word) : Statement (.defer h number) :=
  of_parts rfl rfl (by simp [wordBytes])

theorem extend (h : HostId) (number : Word) : Statement (.extend h number) :=
  of_parts rfl rfl (by simp [wordBytes])

theorem readTickets (h : HostId) (firstSlot : Byte) : Statement (.readTickets h firstSlot) :=
  of_parts rfl rfl (by simp)

theorem readSource (h : HostId) (source : Byte) : Statement (.readSource h source) :=
  of_parts rfl rfl (by simp)

theorem readStatus (h : HostId) : Statement (.readStatus h) :=
  of_parts rfl rfl (by simp)

theorem readLine (h : HostId) (line : Byte) : Statement (.readLine h line) :=
  of_parts rfl rfl (by simp)

theorem post (h : HostId) (source : Byte) (argument : Word) : Statement (.post h source argument) :=
  of_parts rfl rfl (by simp [wordBytes])

theorem rearm (h : HostId) (source : Byte) : Statement (.rearm h source) :=
  of_parts rfl rfl (by simp)

theorem faultTake (h : HostId) : Statement (.faultTake h) :=
  of_parts rfl rfl (by simp)

theorem faultPeek (h : HostId) : Statement (.faultPeek h) :=
  of_parts rfl rfl (by simp)

theorem editOpen (h : HostId) : Statement (.editOpen h) :=
  of_parts rfl rfl (by simp)

theorem editStage (h : HostId) (kind number : Byte) (record : List Byte) : Statement (.editStage h kind number record) := by
  intro x code operands hp hw
  cases hp
  rw [length_requestFrame]
  have ha : stageLengthAllowed (kind :: number :: record) = true := hw
  have hl := stageLength_le ha
  simp only [List.length_cons] at hl ⊢
  exact ⟨congrArg some ha, by omega, by omega⟩

theorem editDrop (h : HostId) (kind number : Byte) : Statement (.editDrop h kind number) :=
  of_parts rfl rfl (by simp)

theorem editList (h : HostId) (firstPosition : Byte) : Statement (.editList h firstPosition) :=
  of_parts rfl rfl (by simp)

theorem editCommit (h : HostId) : Statement (.editCommit h) :=
  of_parts rfl rfl (by simp)

theorem commitCompletion : Statement .commitCompletion := of_no_request rfl

theorem editClose (h : HostId) : Statement (.editClose h) :=
  of_parts rfl rfl (by simp)

theorem idleExpiry : Statement .idleExpiry := of_no_request rfl

theorem leaseExpiry (slot : SlotId) : Statement (.leaseExpiry slot) := of_no_request rfl

theorem hostRelease (h : HostId) : Statement (.hostRelease h) := of_no_request rfl

theorem downDeassertion (d : Deassertion) : Statement (.downDeassertion d) := of_no_request rfl

theorem deviceReset : Statement .deviceReset := of_no_request rfl

theorem startUpAcceptance (found : ResetEnd) : Statement (.startUpAcceptance found) := of_no_request rfl

theorem rawChange (line : LineId) (level : Bool) : Statement (.rawChange line level) := of_no_request rfl

theorem settleExpiry (line : LineId) : Statement (.settleExpiry line) := of_no_request rfl

theorem frameRejected (h : HostId) (bytes : List Byte) (strayBits : Nat) : Statement (.frameRejected h bytes strayBits) := of_no_request rfl

theorem incompleteFrame (h : HostId) (window : Clocked) (strayBits : Nat) : Statement (.incompleteFrame h window strayBits) := of_no_request rfl

theorem frameWhileWorking (w : PortWindow) : Statement (.frameWhileWorking w) := of_no_request rfl

theorem answerRead (h : HostId) (count : Nat) : Statement (.answerRead h count) := of_no_request rfl

end Sys2Proof.Laws.FrameFits
end

