-- ==== Sys2Proof/Tests/Slice0.lean ====
section
/-! SUPPORT. The model's own tests: values the manual works out, the checks of WellFormed, one or two steps for each
family of commands, and, for each statement with hypotheses, a state and operands that meet them. -/

namespace Sys2Proof.Tests

set_option Elab.async false

open Sys2Proof.Machine Sys2Proof.Safety Sys2Proof.Stated

/-! ## Check bytes, frames and numbers that the manual works out -/

/-- R152: 0x97 after the first byte of READ_STATUS, 0xEC after the second. -/
theorem test_crc_of_read_status : crc8 [0x31] = 0x97 ∧ crc8 [0x31, 0x00] = 0xEC := by decide

/-- R161: the READ_STATUS frame is 0x31, 0x00, 0xEC. -/
theorem test_read_status_frame :
    requestFrame 0x31 [] = [0x31, 0x00, 0xEC] ∧ judgeFrame [0x31, 0x00, 0xEC] 0 = .good 0x31 [] ∧
      decodeRequest 2 0x31 [] = some (.readStatus 2) := by decide +kernel

/-- R66: slot 3 at sequence 5 is 0x00A3; the first numbers of slot 0 and slot 31 are 0x0020 and 0x003F. -/
theorem test_ticket_numbers :
    ticketNumber 5 3 = 0x00A3 ∧ ticketNumber 1 0 = 0x0020 ∧ ticketNumber 1 31 = 0x003F ∧ ticketNumber 2 1 = 0x0041 := by
  decide

/-- R66: the counter passes 0 by. -/
theorem test_sequence_wraps : advanceSequence 2047 = 1 ∧ advanceSequence 0 = 1 ∧ advanceSequence 2046 = 2047 := by decide

/-- R142: so does the record counter. -/
theorem test_seq_wraps : advanceSeq 65535 = 1 ∧ advanceSeq 65534 = 65535 := by decide

/-- R1: the kinds at their bounds. -/
theorem test_kinds : kindOf 47 = .watch ∧ kindOf 48 = .posted ∧ kindOf 62 = .posted ∧ kindOf 63 = .notice := by decide

/-- R58: the order of the manual's table for the pointer at H1. -/
theorem test_rotation_order : rotationOrder 1 = [2, 3, 0, 1] ∧ rotationOrder 3 = [0, 1, 2, 3] := by decide

/-- R87: a deadline is reached across the wrap of the time base, and not before it. -/
theorem test_deadline_wraps : reachedMs 2 0xFFFFFFFF = true ∧ reachedMs 0xFFFFFFFF 2 = false ∧ reachedMs 7 7 = true := by
  decide

/-- R161: the worked source block of the manual's example configuration of S5, byte by byte. -/
theorem test_source_block :
    sourceBlock
        { SourceConfig.reset with
          enabled := true, lane := 2, rank := 3, hostSet := 3, handle := 0x0105, leaseMs := 500, retryLimit := 3
          line := 5 } =
      [0x01, 0x23, 0x03, 0x01, 0x05, 0x01, 0xF4, 0x30, 0x05] := by decide

/-- R160, R161: trigger code 5, a fixed bit set and line 40 name no configuration. -/
theorem test_bad_blocks :
    parseSourceBlock [1, 0, 1, 0, 0, 0, 0, 5, 0] = none ∧ parseSourceBlock [8, 0, 1, 0, 0, 0, 0, 0, 0] = none ∧
      parseSourceBlock [1, 0, 1, 0, 0, 0, 0, 0, 40] = none := by decide

/-- A table word spells no command: no row has bits (assumption log 2). -/
theorem test_no_table_word : decodeTableWord 8 0x31 = none := rfl

/-! ## WellFormed: each check refuses an ill-formed command -/

/-- A window opened by 0x5A. -/
def opened (bytes : List Byte) : Clocked := { direction := some 0x5A, bytes := bytes }

theorem test_wellFormed_stage_length :
    (Instr.editStage 0 1 0 [1]).wellFormed = true ∧ (Instr.editStage 0 1 0 [1, 2]).wellFormed = false := by decide

theorem test_wellFormed_rejected_window :
    (Instr.frameRejected 0 [0x31, 0, 0] 0).wellFormed = true ∧
      (Instr.frameRejected 0 [0x31, 0, 0xEC] 0).wellFormed = false ∧
      (Instr.frameRejected 0 [0x31, 0, 0xEC] 1).wellFormed = true := by decide +kernel

theorem test_wellFormed_incomplete_window :
    (Instr.incompleteFrame 0 (opened [0x31, 0]) 3).wellFormed = true ∧
      (Instr.incompleteFrame 0 (opened [0x31, 41]) 0).wellFormed = false := by decide

/-- A window opened by 0xC3 is an answer read, and one without a direction byte has no bytes. -/
theorem test_wellFormed_other_window :
    (Instr.incompleteFrame 0 { direction := some 0x77, bytes := [1] } 0).wellFormed = true ∧
      (Instr.incompleteFrame 0 { direction := some 0xC3, bytes := [1] } 0).wellFormed = false ∧
      (Instr.incompleteFrame 0 { direction := none, bytes := [] } 7).wellFormed = true ∧
      (Instr.incompleteFrame 0 { direction := none, bytes := [1] } 0).wellFormed = false := by decide

theorem test_wellFormed_stray_bits :
    (Instr.incompleteFrame 0 (opened []) 7).wellFormed = true ∧
      (Instr.incompleteFrame 0 (opened []) 8).wellFormed = false := by decide

/-! ## Small states -/

/-- An enabled configuration of S5 of the manual's first example, on the given mode and trigger. -/
def config (m : Mode) (t : Trigger) : SourceConfig :=
  { SourceConfig.reset with
    enabled := true, mode := m, rank := 3, hostSet := 3, handle := 0x0105, leaseMs := 500, retryLimit := 3, line := 5
    trigger := t }

/-- An ARMED source with a configuration. -/
def armed (c : SourceConfig) : Source := { Source.reset with config := c, state := .armed }

/-- An attached host that serves every lane. -/
def served : HostRec := { HostRec.reset with attached := true, laneMask := 0xFF }

/-- H0 attached, the reset over. -/
def one : State := (State.reset.setHost 0 served).setSampled true

/-- Ticket 0x0020 of S5, held by H0. -/
def ticket : Ticket :=
  { number := 0x0020, host := 0, source := 5, lane := 0, handle := 0x0105, coveredCount := 3, argument := none
    attempt := 1, issuedMs := 0, leaseMs := 500, deadlineMs := some 500, extensions := 0 }

/-- H0 attached, S5 ARMED, its ticket held by H0. -/
def holding : State := (one.setSource 5 (armed (config .one .rise))).setSlot 0 { sequence := 1, ticket := some ticket }

/-- `holding` at the ticket's deadline. -/
def expiring : State := holding.setClock { ms := 500, us := 500000, usOfMs := 0 }

/-- H0 attached with its claim of the lane choice `b` waiting, and two occurrences of S5 pending. -/
def claiming (b : Byte) : State :=
  (one.setSource 5 { armed (config .one .rise) with pendingCount := 2 }).setWaiting 0 (some b)

/-- Every slot of the ticket table occupied. -/
def full (s : State) : State := { s with slots := Vector.ofFn fun k => { sequence := 1, ticket := some { ticket with number := ticketNumber 1 k } } }

/-- S48 an ARMED posted source in the given mode that H0 may post to. -/
def posted (m : Mode) (q : List Word) : State :=
  one.setSource 48
    { armed { config m .rise with line := 0, posters := 1 } with argQueue := q }

/-- H0 holds the edit session with a staged list. -/
def editing (l : List StagedEntry) : State :=
  (one.setHost 0 { served with editState := .session }).setEdit
    { EditUnit.reset with holder := some 0, staged := l, idleDeadline := some 250 }

/-- The commit of H0 is in flight with a staged list. -/
def committing (l : List StagedEntry) : State :=
  ((one.setHost 0 { served with editState := .commit }).setEdit
    { EditUnit.reset with holder := some 0, staged := l, commitInFlight := true, commitBoundUs := some 2000 }).setPort 0
      { Port.reset with state := .working }

/-- Line 5 as given. -/
def lined (l : Line) : State := holding.setLine 5 l

/-- The port of H0 as given. -/
def ported (st : PortState) : State := one.setPort 0 { Port.reset with state := st, answerBuffer := [0, 3, 0, 9] }

/-- H0's port IDLE, with a window open on it that was open when the port left DOWN. -/
def ignoring : State := one.setPort 0 { Port.reset with ignoring := true }

/-- One outcome's next state, the state itself where there is none. -/
def after (c : Instr) (s : State) : State :=
  match exec c s with
  | .next t => t
  | .fault _ => s
  | .refused _ => s

/-! ## Steps -/

/-- R112: ATTACH. -/
theorem test_attach : ((after (.attach 1 0x05) one).host 1).laneMask = 0x05 ∧ (after (.attach 1 0x05) one).attached 1 = true := by
  decide +kernel

/-- R115, R116: DETACH is refused with a ticket in hand, and taken without. -/
theorem test_detach : (after (.detach 0) holding).attached 0 = true ∧ (after (.detach 0) one).attached 0 = false := by
  decide +kernel

/-- R46: SET_MASK. -/
theorem test_set_mask : ((after (.setMask 0 0x80) one).host 0).laneMask = 0x80 := by decide +kernel

/-- R57: CLAIM waits, its port WORKING. -/
theorem test_claim :
    (after (.claim 0 0xFF) one).waitingClaim 0 = some 0xFF ∧ ((after (.claim 0 0xFF) one).port 0).state = .working := by
  decide +kernel

/-- R66, R70: the first ticket of slot 0 is 0x0020 and covers the whole pending count. -/
theorem test_claim_taken :
    ((after .claimTaken (claiming 0xFF)).slot 0).ticket.map (fun t => (t.number, t.coveredCount, t.attempt)) =
        some (0x0020, 2, 1) ∧
      ((after .claimTaken (claiming 0xFF)).source 5).pendingCount = 0 := by decide +kernel

/-- R64: a full table answers FULL. -/
theorem test_claim_taken_full :
    ((after .claimTaken (full (claiming 0xFF))).port 0).answerBuffer.head? = some 0x02 := by decide +kernel

/-- R81: DONE consumes. -/
theorem test_done :
    ((after (.done 0 0x0020) holding).slot 0).ticket = none ∧
      ((after (.done 0 0x0020) holding).source 5).pendingCount = 0 := by decide +kernel

/-- R79: the number of a free slot is STALE. -/
theorem test_done_stale : ((after (.done 0 0x0021) holding).port 0).answerBuffer.head? = some 0x05 := by decide +kernel

/-- R83: DEFER returns the covered count. -/
theorem test_defer : ((after (.defer 0 0x0020) holding).source 5).pendingCount = 3 := by decide +kernel

/-- R86: EXTEND. -/
theorem test_extend :
    ((after (.extend 0 0x0020) expiring).slot 0).ticket.map (fun t => (t.deadlineMs, t.extensions)) =
      some (some 1000, 1) := by decide +kernel

/-- R88: the expiry returns the work and counts an attempt. -/
theorem test_lease_expiry :
    ((after (.leaseExpiry 0) expiring).source 5).pendingCount = 3 ∧
      ((after (.leaseExpiry 0) expiring).source 5).attempts = 1 := by decide +kernel

/-- R90: the third expiry in a row, at retry_limit 3, abandons. -/
theorem test_abandonment :
    ((after (.leaseExpiry 0) (expiring.setSource 5 { armed (config .one .rise) with attempts := 2 })).source 5).state =
        .faulted ∧
      ((after (.leaseExpiry 0)
              (expiring.setSource 5 { armed (config .one .rise) with attempts := 2 })).faults.records.map
            fun r => (r.seq, r.cause)) =
        [(1, .abandoned 5 none 0x0020 3)] := by decide +kernel

/-- R18: POST joins the tail. -/
theorem test_post_one : ((after (.post 0 48 0xBEEF) (posted .one [1])).source 48).argQueue = [1, 0xBEEF] := by decide +kernel

/-- R19, R105: a post in EACH mode writes the mailbox; with echo no the poster is not marked. -/
theorem test_post_each :
    ((after (.post 0 48 0xBEEF) (posted .each [])).source 48).mailbox = 0xBEEF ∧
      ((after (.post 0 48 0xBEEF) (posted .each [])).source 48).markerOf 0 = .clear := by decide +kernel

/-- R10: REARM. -/
theorem test_rearm :
    ((after (.rearm 0 5) (one.setSource 5 { armed (config .one .rise) with state := .faulted, attempts := 3 })).source
          5) = armed (config .one .rise) := by decide +kernel

/-- R145: FAULT_TAKE on an empty list answers NONE. -/
theorem test_fault_take : ((after (.faultTake 0) one).port 0).answerBuffer.head? = some 0x01 := by decide +kernel

/-- R126: EDIT_OPEN. -/
theorem test_edit_open : (after (.editOpen 0) one).edit.holder = some 0 := by decide +kernel

/-- R130: EDIT_STAGE appends; R129: credit_limit 5 is refused BADVALUE. -/
theorem test_edit_stage :
    (after (.editStage 0 1 3 [4]) (editing [])).edit.staged = [.lane 3 4] ∧
      ((after (.editStage 0 1 3 [5]) (editing [])).port 0).answerBuffer.head? = some 0x06 := by decide +kernel

/-- R131: EDIT_DROP. -/
theorem test_edit_drop : (after (.editDrop 0 1 3) (editing [.lane 3 4, .lane 2 1])).edit.staged = [.lane 2 1] := by
  decide +kernel

/-- R134, R136: EDIT_COMMIT, and its completion. -/
theorem test_commit :
    (after (.editCommit 0) (editing [.lane 3 4])).edit.commitInFlight = true ∧
      (after .commitCompletion (committing [.lane 3 4])).creditLimit 3 = 4 := by decide +kernel

/-- R133: EDIT_CLOSE. -/
theorem test_edit_close : (after (.editClose 0) (editing [.lane 3 4])).edit = EditUnit.reset := by decide +kernel

/-- R128: the idle expiry stores EDIT_EXPIRED. -/
theorem test_idle_expiry :
    (after .idleExpiry ((editing []).setClock { ms := 250, us := 250000, usOfMs := 0 })).faults.records =
      [{ seq := 1, timeMs := 250, cause := .editExpired 0, gap := false }] := by decide +kernel

/-- R118, R121: the release returns the work and stores HOST_LOST. -/
theorem test_host_release :
    ((after (.hostRelease 0) holding).source 5).pendingCount = 3 ∧
      (after (.hostRelease 0) holding).faults.records.map (fun r => r.cause) = [.hostLost 0 1 false] := by decide +kernel

/-- R123: DOWN_DEASSERTION. -/
theorem test_down_deassertion :
    ((after (.downDeassertion { host := 0, windowOpen := false }) (after (.hostRelease 0) holding)).port 0).state =
      .idle := by decide +kernel

/-- R156: a window open at the deassertion of DOWN is ignored to its end, and the port takes the next. -/
theorem test_window_open_at_deassertion :
    let s := after (.downDeassertion { host := 0, windowOpen := true }) (ported .down)
    (after (.attach 0 1) s).attached 0 = s.attached 0 ∧ ((after (.readStatus 0) s).port 0).state = .idle ∧
      ((after (.readStatus 0) (after (.readStatus 0) s)).port 0).state = .answered := by decide +kernel

/-- R159: DEVICE_RESET. -/
theorem test_device_reset : after .deviceReset holding = State.reset := by decide +kernel

/-- R159: while a reset lasts every window is ignored. -/
theorem test_window_in_reset : after (.attach 1 0x05) State.reset = State.reset := by decide +kernel

/-- R34: the first sample. -/
theorem test_start_up :
    let s := after (.startUpAcceptance { levels := 0x20, openWindows := 2 }) State.reset
    (s.line 5).acceptedLevel = true ∧ (s.line 4).acceptedLevel = false ∧ (s.port 1).ignoring = true ∧
      (s.port 0).ignoring = false := by decide +kernel

/-- R28, R30: with settle_us 20 a rise begins settling; with 0 it gives S5 an occurrence at once. -/
theorem test_raw_change :
    ((after (.rawChange 5 true) (lined Line.reset)).line 5).settleDeadline = some 20 ∧
      ((after (.rawChange 5 true) (lined { Line.reset with settleUs := 0 })).source 5).pendingCount = 1 := by
  decide +kernel

/-- R31: the expiry accepts the level. -/
theorem test_settle_expiry :
    ((after (.settleExpiry 5) (lined { Line.reset with rawLevel := true, settleDeadline := some 0 })).line
          5).acceptedLevel = true := by decide +kernel

/-- R151: a bad check byte is answered BADFRAME, an unknown code UNKNOWN. -/
theorem test_frame_rejected :
    ((after (.frameRejected 0 [0x31, 0, 0] 0) one).port 0).answerBuffer.head? = some 0x07 ∧
      ((after (.frameRejected 0 (requestFrame 0x77 []) 0) one).port 0).answerBuffer.head? = some 0x08 := by decide +kernel

/-- R150: an unread answer survives an incomplete frame. -/
theorem test_incomplete_frame :
    (after (.incompleteFrame 0 (opened [0x31]) 0) (ported .answered)).port 0 =
      { (ported .answered).port 0 with shiftedOut := [0, 0] } := by decide +kernel

/-- R148: the rest of a window with another direction byte is ignored. -/
theorem test_other_direction_byte :
    ((after (.incompleteFrame 0 { direction := some 0x77, bytes := [0x31, 0, 0xEC] } 0) one).port 0).state = .idle := by
  decide +kernel

/-- R154: a window on a WORKING port. -/
theorem test_frame_while_working :
    ((after (.frameWhileWorking { host := 0, count := 3 }) (ported .working)).port 0).refused = true := by
  decide +kernel

/-- R155: an answer read whole leaves the port IDLE; one byte short, ANSWERED. -/
theorem test_answer_read :
    ((after (.answerRead 0 4) (ported .answered)).port 0).state = .idle ∧
      ((after (.answerRead 0 3) (ported .answered)).port 0).state = .answered := by decide +kernel

/-- R77, R78: READ_TICKETS of one ticket carries 3 + 16 data bytes. -/
theorem test_read_tickets :
    ((after (.readTickets 0 0) holding).port 0).answerBuffer.take 6 = [0x00, 0x02, 0x13, 0x01, 0x01, 0xFF] := by
  decide +kernel

/-- R24, R163: READ_SOURCE of a ONE-mode watch source with a live ticket: 3 + 9 + 3 + 2 bytes. -/
theorem test_read_source : ((after (.readSource 0 5) holding).port 0).answerBuffer.length = 4 + 17 := by decide +kernel

/-- R158: READ_STATUS begins with the part code. -/
theorem test_read_status :
    ((after (.readStatus 0) one).port 0).answerBuffer.take 6 = [0x00, 0x02, 0x0C, 0x64, 0x04, 0x01] := by decide +kernel

/-- R37: READ_LINE of a steady line is 6 bytes. -/
theorem test_read_line : ((after (.readLine 0 39) one).port 0).answerBuffer.take 3 = [0x00, 0x02, 0x06] := by decide +kernel

/-- R146: FAULT_PEEK of an empty queue. -/
theorem test_fault_peek :
    ((after (.faultPeek 0) one).port 0).answerBuffer.take 7 = [0x00, 0x02, 0x04, 0x00, 0x00, 0x01, 0x00] := by decide +kernel

/-- R132: EDIT_LIST of a LANE entry. -/
theorem test_edit_list :
    ((after (.editList 0 0) (editing [.lane 3 4])).port 0).answerBuffer.take 8 =
      [0x00, 0x02, 0x05, 0x01, 0x01, 0x01, 0x03, 0x04] := by decide +kernel

/-- R17: at the end of a level source's ticket the level check runs, and an active level is work again. -/
theorem test_level_check_at_done :
    ((after (.done 0 0x0020)
            ((lined { Line.reset with rawLevel := true, acceptedLevel := true }).setSource 5
              (armed (config .one .high)))).source 5).pendingCount = 1 := by decide +kernel

/-- An empty queue: the clocks advance, and stand still while a reset lasts. -/
theorem test_tick : (∃ t, step one = .next t ∧ t.clock.us = 1) ∧ step State.reset = .next State.reset :=
  ⟨⟨_, rfl, rfl⟩, rfl⟩

/-- The tick at the last microsecond of a millisecond: the time base advances. -/
theorem test_tick_millisecond : ({ ms := 0xFFFFFFFF, us := 7, usOfMs := 999 } : Clock).tick = { ms := 0, us := 8, usOfMs := 0 } := by
  decide

/-! ## Witnesses: for each statement with hypotheses, states and operands that meet them, a case for each clause -/

/-- The last microsecond but one, and the last, of a millisecond. -/
theorem test_witness_EmptyQueueStepPassesOneMicrosecond :
    State.reset.pending = [] ∧ State.reset.sampled = false ∧ holding.pending = [] ∧ holding.sampled = true ∧
      (holding.setClock { ms := 0, us := 998, usOfMs := 998 }).clock.usOfMs < 999 ∧
      999 ≤ (holding.setClock { ms := 0, us := 999, usOfMs := 999 }).clock.usOfMs := by decide +kernel

/-- H1 can attach, H0 cannot; an unread answer stands in neither's way. -/
theorem test_witness_AttachAdmitsTheHost :
    Ready one 1 ∧ one.attached 1 = false ∧ Ready (ported .answered) 0 ∧ (ported .answered).attached 0 = true := by
  unfold Ready Listens
  decide +kernel

/-- Each case of DETACH. -/
theorem test_witness_DetachDismissesTheHost :
    Ready one 0 ∧ one.attached 0 = true ∧ (∀ k : SlotId, ∀ u ∈ (one.slot k).ticket, u.host ≠ 0) ∧
      (one.host 0).editState ≠ .session ∧ Ready one 1 ∧ one.attached 1 = false ∧
      Ready holding 0 ∧ holding.attached 0 = true ∧ (holding.slot 0).ticket = some ticket ∧ ticket.host = 0 ∧
      Ready (editing []) 0 ∧ (editing []).attached 0 = true ∧ ((editing []).host 0).editState = .session := by
  unfold Ready Listens
  decide +kernel

theorem test_witness_SetMaskReplacesTheMask :
    Ready one 0 ∧ one.attached 0 = true ∧ Ready one 1 ∧ one.attached 1 = false := by
  unfold Ready Listens
  decide +kernel

theorem test_witness_ClaimWaitsAtTheArbiter : Ready one 0 ∧ Ready (ported .answered) 0 := by
  unfold Ready Listens
  decide +kernel

/-- A state in which the one waiting claim is that of H0 with the lane choice `b`. -/
theorem claiming_next (b : Byte) : IsNext (claiming b) 0 b := by
  have hw : (claiming b).waitingClaim = fun x => if x = 0 then some b else none := by
    funext x
    fin_cases x <;> rfl
  refine ⟨by rw [hw]; rfl, fun x hx => ?_⟩
  rw [hw] at hx
  by_cases h0 : x = 0
  · subst h0; exact le_refl _
  · simp [h0] at hx

theorem claiming_best {b : Byte} {c : LaneChoice} (hd : ∀ j : SourceId, deliverable (claiming b) j 0 = true ↔ j = 5)
    (ha : Allows ((claiming b).source 5).config.lane c) : Best (claiming b) 0 c 5 := by
  refine ⟨⟨(hd 5).mpr rfl, ha⟩, ?_⟩
  intro j hj _
  rw [(hd j).mp hj]
  exact Or.inr ⟨rfl, Or.inr ⟨rfl, le_refl _⟩⟩

/-- ANY, and LANE0 by its number. -/
theorem test_witness_ClaimTakenIssuesATicket :
    (IsNext (claiming 0xFF) 0 0xFF ∧ (claiming 0xFF).attached 0 = true ∧ Names 0xFF .any ∧
      choiceAdmitted (claiming 0xFF) 0 .any = true ∧ (claiming 0xFF).liveTotal < 32 ∧
      Best (claiming 0xFF) 0 .any 5) ∧
      (IsNext (claiming 0) 0 0 ∧ (claiming 0).attached 0 = true ∧ Names 0 (.lane 0) ∧
      choiceAdmitted (claiming 0) 0 (.lane 0) = true ∧ (claiming 0).liveTotal < 32 ∧ Best (claiming 0) 0 (.lane 0) 5) :=
  ⟨⟨claiming_next _, by decide +kernel, rfl, by decide +kernel, by decide +kernel,
      claiming_best (by decide +kernel) trivial⟩,
    claiming_next _, by decide +kernel, rfl, by decide +kernel, by decide +kernel, claiming_best (by decide +kernel)
      (show ((claiming 0).source 5).config.lane = 0 by decide +kernel)⟩

/-- Not attached; code 8, which names no lane; LANE7, outside the mask; a full table; nothing for LANE7. -/
theorem test_witness_ClaimTakenWithoutATicket :
    (IsNext ((claiming 8).setHost 0 HostRec.reset) 0 8 ∧ ((claiming 8).setHost 0 HostRec.reset).attached 0 = false) ∧
      (IsNext (claiming 8) 0 8 ∧ (claiming 8).attached 0 = true ∧ ∀ c, ¬ Names 8 c) ∧
      (IsNext ((claiming 7).setHost 0 { served with laneMask := 0x7F }) 0 7 ∧ Names 7 (.lane 7) ∧
        choiceAdmitted ((claiming 7).setHost 0 { served with laneMask := 0x7F }) 0 (.lane 7) = false ∧
        ((claiming 7).setHost 0 { served with laneMask := 0x7F }).attached 0 = true) ∧
      (IsNext (full (claiming 0xFF)) 0 0xFF ∧ (full (claiming 0xFF)).attached 0 = true ∧ Names 0xFF .any ∧
        choiceAdmitted (full (claiming 0xFF)) 0 .any = true ∧ 32 ≤ (full (claiming 0xFF)).liveTotal) ∧
      IsNext (claiming 7) 0 7 ∧ (claiming 7).attached 0 = true ∧ (claiming 7).liveTotal < 32 ∧ Names 7 (.lane 7) ∧
        choiceAdmitted (claiming 7) 0 (.lane 7) = true ∧ NothingFor (claiming 7) 0 (.lane 7) := by
  refine ⟨⟨claiming_next 8, by decide +kernel⟩, ⟨claiming_next 8, by decide +kernel, ?_⟩,
    ⟨claiming_next 7, rfl, by decide +kernel, by decide +kernel⟩,
    ⟨claiming_next 0xFF, by decide +kernel, rfl, by decide +kernel, by decide +kernel⟩,
    claiming_next 7, by decide +kernel, by decide +kernel, rfl, by decide +kernel, ?_⟩
  · intro c
    cases c with
    | any => simp [Names]
    | lane k => revert k; simp only [Names]; decide
  · have h : ∀ j : SourceId, deliverable (claiming 7) j 0 = true → ¬ (((claiming 7).source j).config.lane = 7) := by
      decide +kernel
    exact h

/-- The ticket's number names its slot at the bounds of both parts. -/
theorem test_witness_TicketNumbersNameSlotAndSequence :
    holding.findLive 0x0020 = some ticket ∧ holding.findLive 0 = none ∧ holding.findLive 0x0040 = none := by
  decide +kernel

/-- The six conditions meet for S5 and H0, and so does R49. -/
theorem test_witness_AttentionIsTheSixConditions :
    deliverable (claiming 0xFF) 5 0 = true ∧ atnLevel (claiming 0xFF) 0 = true ∧ deliverable holding 5 0 = false := by
  decide +kernel

theorem test_witness_DoneAndDefer :
    Ready holding 0 ∧ holding.findLive 0x0020 = some ticket ∧ ticket.host = 0 ∧
      (holding.source ticket.source).state = .armed := by
  unfold Ready Listens
  decide +kernel

theorem test_witness_EndsAgainstASourceOutOfServiceDiscard :
    Ready (expiring.setSource 5 Source.reset) 0 ∧ (expiring.setSource 5 Source.reset).findLive 0x0020 = some ticket ∧
      ticket.host = 0 ∧ ((expiring.setSource 5 Source.reset).source ticket.source).state ≠ .armed ∧
      ((expiring.setSource 5 Source.reset).slot 0).ticket = some ticket ∧ ticket.deadlineMs = some 500 ∧
      reachedMs (expiring.setSource 5 Source.reset).now 500 = true := by
  unfold Ready Listens
  decide +kernel

/-- A sequence part of 0, the number of a free slot, an old number of the slot, and another host's ticket. -/
theorem test_witness_NumbersNotOnesOwnAreRefused :
    Ready holding 0 ∧ (31 : Word).toNat / 32 = 0 ∧
      (∀ u ∈ (holding.slot (slotOf 0x0021)).ticket, u.number.toNat / 32 ≠ (0x0021 : Word).toNat / 32) ∧
      (∀ u ∈ (holding.slot (slotOf 0x0040)).ticket, u.number.toNat / 32 ≠ (0x0040 : Word).toNat / 32) ∧
      Ready holding 1 ∧ holding.findLive 0x0020 = some ticket ∧ ticket.host ≠ 1 := by
  unfold Ready Listens
  decide +kernel

/-- A ticket with no lease, one at 14 extensions, one at 15. -/
theorem test_witness_ExtendMovesTheDeadline :
    (Ready (one.setSlot 0 { sequence := 1, ticket := some { ticket with leaseMs := 0, deadlineMs := none } }) 0 ∧
        (one.setSlot 0 { sequence := 1, ticket := some { ticket with leaseMs := 0, deadlineMs := none } }).findLive
            0x0020 =
          some { ticket with leaseMs := 0, deadlineMs := none }) ∧
      (Ready (one.setSlot 0 { sequence := 1, ticket := some { ticket with extensions := 14 } }) 0 ∧
        (one.setSlot 0 { sequence := 1, ticket := some { ticket with extensions := 14 } }).findLive 0x0020 =
          some { ticket with extensions := 14 }) ∧
      (Ready (one.setSlot 0 { sequence := 1, ticket := some { ticket with extensions := 15 } }) 0 ∧
        (one.setSlot 0 { sequence := 1, ticket := some { ticket with extensions := 15 } }).findLive 0x0020 =
          some { ticket with extensions := 15 }) ∧
      0 < ticket.leaseMs ∧ 14 < 15 ∧ ticket.host = 0 := by
  unfold Ready Listens
  decide +kernel

/-- The first expiry of three, and the third. -/
theorem test_witness_LeaseExpiry :
    (RuntimeKept 5 (expiring.source 5) ∧ (expiring.slot 0).ticket = some ticket ∧ ticket.deadlineMs = some 500 ∧ reachedMs expiring.now 500 = true ∧
      (expiring.source ticket.source).state = .armed ∧
      reachesLimit 5 0 (attempted 0 (returned ticket (expiring.source 5))) = false) ∧
      RuntimeKept 5 ((expiring.setSource 5 { armed (config .one .rise) with attempts := 2 }).source 5) ∧
      ((expiring.setSource 5 { armed (config .one .rise) with attempts := 2 }).slot 0).ticket = some ticket ∧
      reachedMs (expiring.setSource 5 { armed (config .one .rise) with attempts := 2 }).now 500 = true ∧
      ((expiring.setSource 5 { armed (config .one .rise) with attempts := 2 }).source ticket.source).state = .armed ∧
      reachesLimit 5 0
          (attempted 0
            (returned ticket ((expiring.setSource 5 { armed (config .one .rise) with attempts := 2 }).source 5))) =
        true := by
  unfold RuntimeKept
  decide +kernel

theorem test_witness_LiveTicketsKeepTheirSnapshot :
    (∃ t, exec (.extend 0 0x0020) holding = .next t) ∧ (holding.slot 0).ticket = some ticket :=
  ⟨⟨_, rfl⟩, by decide +kernel⟩

/-- Three arguments, and four. -/
theorem test_witness_PostJoinsTheQueueOrIsFull :
    Ready (posted .one [1, 2, 3]) 0 ∧ Ready (posted .one [1, 2, 3, 4]) 0 ∧ kindOf 48 = .posted ∧
      (posted .one [1, 2, 3]).attached 0 = true ∧
      hasHost ((posted .one [1, 2, 3]).source 48).config.posters 0 = true ∧
      ((posted .one [1, 2, 3]).source 48).state = .armed ∧ ((posted .one [1, 2, 3]).source 48).config.mode = .one ∧
      ((posted .one [1, 2, 3]).source 48).argQueue.length + (posted .one [1, 2, 3]).heldArguments 48 < 4 ∧
      (posted .one [1, 2, 3, 4]).attached 0 = true ∧
      hasHost ((posted .one [1, 2, 3, 4]).source 48).config.posters 0 = true ∧
      ((posted .one [1, 2, 3, 4]).source 48).state = .armed ∧
      ((posted .one [1, 2, 3, 4]).source 48).config.mode = .one ∧
      4 ≤ ((posted .one [1, 2, 3, 4]).source 48).argQueue.length + (posted .one [1, 2, 3, 4]).heldArguments 48 := by
  unfold Ready Listens
  decide +kernel

theorem test_witness_PostWritesTheMailboxAndMarks :
    Ready (posted .each []) 0 ∧ kindOf 48 = .posted ∧ (posted .each []).attached 0 = true ∧
      hasHost ((posted .each []).source 48).config.posters 0 = true ∧ ((posted .each []).source 48).state = .armed ∧
      ((posted .each []).source 48).config.mode = .each := by
  unfold Ready Listens
  decide +kernel

/-- S64, S47, S63; S48 for a host that is not attached; S62, which has no posters; S48 in OFF. -/
theorem test_witness_PostRefusedInOrder :
    Ready one 0 ∧ Ready one 1 ∧ 63 < (64 : Byte).toNat ∧ (47 : Byte).toNat < 48 ∧ (63 : Byte).toNat = 63 ∧
      kindOf 48 = .posted ∧ kindOf 62 = .posted ∧ (48 : Byte).toNat = (48 : SourceId).val ∧
      (62 : Byte).toNat = (62 : SourceId).val ∧ one.attached 1 = false ∧ one.attached 0 = true ∧
      hasHost (one.source 62).config.posters 0 = false ∧
      Ready (one.setSource 48 { Source.reset with config := { config .one .rise with line := 0, posters := 1 } }) 0 ∧
      hasHost
          ((one.setSource 48
                { Source.reset with config := { config .one .rise with line := 0, posters := 1 } }).source
              48).config.posters 0 = true ∧
      ((one.setSource 48 { Source.reset with config := { config .one .rise with line := 0, posters := 1 } }).source
            48).state ≠ .armed := by
  unfold Ready Listens
  decide +kernel

/-- S64; H1, not attached; S63, whose host_set is empty; S5 ARMED, and FAULTED. -/
theorem test_witness_RearmReturnsAFaultedSourceToArmed :
    Ready holding 0 ∧ Ready holding 1 ∧ 63 < (64 : Byte).toNat ∧ (5 : Byte).toNat = (5 : SourceId).val ∧
      (63 : Byte).toNat = (63 : SourceId).val ∧ holding.attached 1 = false ∧ holding.attached 0 = true ∧
      hasHost (holding.source 63).config.hostSet 0 = false ∧ hasHost (holding.source 5).config.hostSet 0 = true ∧
      (holding.source 5).state ≠ .faulted ∧
      Ready (one.setSource 5 { armed (config .one .rise) with state := .faulted }) 0 ∧
      (one.setSource 5 { armed (config .one .rise) with state := .faulted }).attached 0 = true ∧
      hasHost ((one.setSource 5 { armed (config .one .rise) with state := .faulted }).source 5).config.hostSet 0 =
        true ∧
      ((one.setSource 5 { armed (config .one .rise) with state := .faulted }).source 5).state = .faulted := by
  unfold Ready Listens
  decide +kernel

/-- S64; S63 and S48 in each mode. -/
theorem test_witness_ReadSourceShowsTheRecord :
    Ready (posted .one [1]) 0 ∧ Ready (posted .each []) 0 ∧
      Ready (one.setSource 63 (armed (config .each .rise))) 0 ∧ 63 < (64 : Byte).toNat ∧
      (63 : Byte).toNat = (63 : SourceId).val ∧ kindOf 63 ≠ .posted ∧ kindOf 48 = .posted ∧
      ((posted .one [1]).source 63).config.mode = .one ∧ ((posted .one [1]).source 48).config.mode = .one ∧
      ((one.setSource 63 (armed (config .each .rise))).source 63).config.mode = .each ∧
      ((posted .each []).source 48).config.mode = .each := by
  unfold Ready Listens
  decide +kernel

theorem holding_tickets : TicketsKept holding := by unfold TicketsKept TicketKept; decide +kernel

theorem holding_unique : TicketsUnique holding := by unfold TicketsUnique; decide +kernel

theorem test_witness_ReadTicketsListsAPage :
    TicketsKept holding ∧ Ready holding 0 ∧ 31 < (32 : Byte).toNat ∧ (31 : Byte).toNat ≤ 31 :=
  ⟨holding_tickets, by unfold Ready Listens; decide +kernel⟩

theorem test_witness_ReadLineStatusAndFaultPeek :
    Ready one 0 ∧ 39 < (40 : Byte).toNat ∧ (39 : Byte).toNat = (39 : LineId).val := by
  unfold Ready Listens
  decide +kernel

/-- The record a store makes, taken. -/
theorem test_witness_FaultTakeRemovesTheOldest :
    Ready one 0 ∧ one.faults.records = [] ∧ Ready (storeFault (.overflow 5) one) 0 ∧
      (storeFault (.overflow 5) one).faults.records = [{ seq := 1, timeMs := 0, cause := .overflow 5, gap := false }] := by
  unfold Ready Listens
  decide +kernel

theorem test_witness_EditOpenTakesTheSession :
    Ready (editing []) 1 ∧ (editing []).attached 1 = false ∧ Ready (editing []) 0 ∧ (editing []).attached 0 = true ∧
      (editing []).edit.holder = some 0 ∧ Ready ((editing []).setHost 1 served) 1 ∧
      ((editing []).setHost 1 served).attached 1 = true ∧ ((editing []).setHost 1 served).edit.holder = some 0 ∧
      Ready one 0 ∧ one.attached 0 = true ∧ one.edit.holder = none := by
  unfold Ready Listens
  decide +kernel

/-- `n` staged entries of lines, n at most 40. -/
def manyLines (n : Nat) : List StagedEntry := (allLines.take n).map fun i => .line i 20

/-- LANE3 replaced in a list that holds it, appended to one of 15, and refused by one of 16. -/
theorem test_witness_EditStageBuildsTheList :
    StagedEntry.Valid (.lane 3 4) ∧
      (Ready (editing [.lane 2 1, .lane 3 1]) 0 ∧ Holds (editing [.lane 2 1, .lane 3 1]) 0 ∧
        ListedAt (editing [.lane 2 1, .lane 3 1]).edit.staged 1 3 1) ∧
      (Ready (editing (manyLines 15)) 0 ∧ Holds (editing (manyLines 15)) 0 ∧
        NotListed (editing (manyLines 15)).edit.staged 1 3 ∧ (editing (manyLines 15)).edit.staged.length = 15) ∧
      Ready (editing (manyLines 16)) 0 ∧ Holds (editing (manyLines 16)) 0 ∧
        NotListed (editing (manyLines 16)).edit.staged 1 3 ∧ (editing (manyLines 16)).edit.staged.length = 16 := by
  unfold StagedEntry.Valid Ready Listens Holds ListedAt NotListed
  decide +kernel

/-- No session; target kind 3; credit_limit 5; three operand bytes too many for LANE, and none of its record. -/
theorem test_witness_EditStageRefusesBadRecords :
    (Ready one 0 ∧ one.edit.holder ≠ some 0 ∧ Ready (editing []) 0 ∧ (editing []).edit.holder = some 0) ∧
      StageLength [1, 3, 5] ∧ StageLength [3, 0, 5] ∧ ¬ StageLength [1, 3, 5, 0, 0, 0] ∧ ¬ StageLength [1, 3] ∧
      (¬ ∃ e : StagedEntry, StagedEntry.Valid e ∧ entryKind e = 3 ∧ entryNumber e = 0 ∧ entryRecord e = [5]) ∧
      ¬ ∃ e : StagedEntry, StagedEntry.Valid e ∧ entryKind e = 1 ∧ entryNumber e = 3 ∧ entryRecord e = [5] := by
  refine ⟨by unfold Ready Listens; decide +kernel, ⟨1, [3, 5], by decide⟩, ⟨3, [0, 5], by decide⟩, ?_, ?_, ?_, ?_⟩
  · rintro ⟨kind, rest, h, hl⟩
    cases h
    revert hl
    decide
  · rintro ⟨kind, rest, h, hl⟩
    cases h
    revert hl
    decide
  · rintro ⟨e, -, hk, -⟩
    cases e <;> simp [entryKind] at hk
  · rintro ⟨e, hv, hk, -, hr⟩
    cases e with
    | source n c => simp [entryKind] at hk
    | lane k limit =>
      simp only [StagedEntry.Valid, validCredit, Bool.and_eq_true, decide_eq_true_eq] at hv
      simp only [entryRecord, List.cons.injEq, and_true] at hr
      have := congrArg BitVec.toNat hr
      simp at this
      omega
    | line i us => simp [entryKind] at hk

/-- The largest lease_ms two bytes carry, and the manual's block. -/
theorem test_witness_SourceBlocksCarryTheConfiguration :
    { SourceConfig.reset with leaseMs := 65535 }.leaseMs < 65536 ∧
      parseSourceBlock [1, 3, 3, 1, 5, 1, 0xF4, 0x30, 5] = some (config .one .rise) := by decide +kernel

/-- No session; LANE8 and kind 3; LANE7, not in the list; LANE3 at position 1. -/
theorem test_witness_EditDropRemovesTheEntry :
    Ready one 0 ∧ one.edit.holder ≠ some 0 ∧ Ready (editing [.lane 2 1, .lane 3 1]) 0 ∧
      Holds (editing [.lane 2 1, .lane 3 1]) 0 ∧ targetCount 1 ≤ (8 : Byte).toNat ∧ targetCount 3 ≤ (0 : Byte).toNat ∧
      (7 : Byte).toNat < targetCount 1 ∧ NotListed (editing [.lane 2 1, .lane 3 1]).edit.staged 1 7 ∧
      ListedAt (editing [.lane 2 1, .lane 3 1]).edit.staged 1 3 1 := by
  unfold Ready Listens Holds ListedAt NotListed
  decide +kernel

theorem test_witness_EditListShowsTheEntries :
    Ready one 0 ∧ one.edit.holder ≠ some 0 ∧ Ready (editing []) 0 ∧ (editing []).edit.holder = some 0 ∧
      15 < (16 : Byte).toNat ∧ (15 : Byte).toNat ≤ 15 := by
  unfold Ready Listens
  decide +kernel

theorem test_witness_EditCloseAndEditCommit :
    Ready one 0 ∧ one.edit.holder ≠ some 0 ∧ Ready (editing []) 0 ∧ (editing []).edit.holder = some 0 := by
  unfold Ready Listens
  decide +kernel

/-- A commit that would change the mode of S5, which has a live ticket, in its second entry. -/
theorem test_witness_CommitConflictAppliesNothing :
    let s :=
      ((committing [.lane 3 4, .source 5 (config .each .rise)]).setSource 5 (armed (config .one .rise))).setSlot 0
        { sequence := 1, ticket := some ticket }
    s.edit.holder = some 0 ∧ s.edit.commitInFlight = true ∧
      s.edit.staged[1]? = some (.source 5 (config .each .rise)) ∧
      conflicts s (.source 5 (config .each .rise)) = true ∧ ∀ q < 1, ∀ x ∈ s.edit.staged[q]?, conflicts s x = false := by
  decide +kernel

/-- A commit of a source, a lane and a line. -/
theorem test_witness_CommitAppliesEveryEntry :
    let s := committing [.source 5 (config .each .rise), .lane 3 4, .line 39 1020]
    EditKept s ∧ s.edit.holder = some 0 ∧ s.edit.commitInFlight = true ∧ ∀ e ∈ s.edit.staged, conflicts s e = false := by
  refine ⟨⟨by decide +kernel, by decide +kernel, by decide +kernel, by decide +kernel, by decide +kernel, ?_,
    by decide +kernel, by decide +kernel⟩, by decide +kernel⟩
  intro e he
  rcases List.mem_cons.mp he with rfl | he
  · show validSource _ _ = true; decide +kernel
  rcases List.mem_cons.mp he with rfl | he
  · show validCredit _ = true; decide
  rcases List.mem_cons.mp he with rfl | he
  · show validSettle _ = true; decide
  · simp at he

/-- At the deadline, and 2^31 - 1 ms after it. -/
theorem test_witness_IdleExpiryEndsTheSession :
    Holds (editing []) 0 ∧ (editing []).edit.idleDeadline = some 250 ∧
      reachedMs ((editing []).setClock { ms := 250, us := 250000, usOfMs := 0 }).now 250 = true ∧
      reachedMs (250 + 0x7FFFFFFF) 250 = true ∧ reachedMs (250 + 0x80000000) 250 = false := by
  refine ⟨?_, by decide +kernel⟩
  unfold Holds; decide +kernel

theorem test_witness_ConfigurationChangesAtCommitsAlone :
    (∃ t, exec (.rearm 0 5) holding = .next t) ∧ Instr.rearm 0 5 ≠ .commitCompletion ∧
      Instr.rearm 0 5 ≠ .deviceReset :=
  ⟨⟨_, rfl⟩, by decide, by decide⟩

/-- A host with a ticket, and one with nothing. -/
theorem test_witness_HostReleaseTakesEverythingBack :
    TicketsUnique holding ∧ (holding.port 0).state ≠ .down ∧ holding.ticketsOf 0 ≠ [] ∧ (holding.port 1).state ≠ .down ∧
      holding.ticketsOf 1 = [] ∧ holding.edit.holder ≠ some 1 :=
  ⟨holding_unique, by decide +kernel⟩

theorem test_witness_DownKeepsThePortUntilDeassertion : ((ported .down).port 0).state = .down := by decide +kernel

/-- An event of each kind that does not arise. -/
theorem test_witness_EventsThatDoNotAriseChangeNothing :
    (∀ h : HostId, one.waitingClaim h = none) ∧ one.edit.holder = none ∧ (editing []).edit.commitInFlight = false ∧
      (committing []).edit.commitInFlight = true ∧
      (editing []).edit.idleDeadline = some 250 ∧ reachedMs 249 250 = false ∧
      (holding.slot 0).ticket = some ticket ∧ ticket.deadlineMs = some 500 ∧ reachedMs 499 500 = false ∧
      ((ported .down).port 0).state = .down ∧ (one.port 0).state ≠ .down ∧
      (∀ d ∈ ((lined { Line.reset with settleDeadline := some 1 }).line 5).settleDeadline,
        (lined { Line.reset with settleDeadline := some 1 }).clock.us < d) ∧
      (lined Line.reset).sampled = true ∧ State.reset.sampled = false ∧ ((lined Line.reset).line 5).rawLevel = false ∧
      Listens one 0 ∧ (one.port 0).state ≠ .working := by
  unfold Listens
  decide +kernel

theorem test_witness_FirstSamplesReportNoEdge : State.reset.sampled = false := rfl

/-- settle_us 20 with no deadline, and a line that settles. -/
theorem test_witness_RawChangesBeginAndCancelSettling :
    (lined Line.reset).sampled = true ∧ ((lined Line.reset).line 5).rawLevel ≠ true ∧
      ((lined Line.reset).line 5).settleDeadline = none ∧ 0 < ((lined Line.reset).line 5).settleUs ∧
      ((lined { Line.reset with rawLevel := true, settleDeadline := some 20 }).line 5).rawLevel ≠ false ∧
      (lined { Line.reset with rawLevel := true, settleDeadline := some 20 }).sampled = true ∧
      ((lined { Line.reset with rawLevel := true, settleDeadline := some 20 }).line 5).settleDeadline ≠ none := by
  decide +kernel

/-- settle_us 0, and a settling line at its deadline. -/
theorem test_witness_AcceptedEdgesReachEveryWatchSource :
    (lined { Line.reset with settleUs := 0 }).sampled = true ∧
      ((lined { Line.reset with settleUs := 0 }).line 5).rawLevel ≠ true ∧
      ((lined { Line.reset with settleUs := 0 }).line 5).settleDeadline = none ∧
      ((lined { Line.reset with settleUs := 0 }).line 5).settleUs = 0 ∧
      ((lined { Line.reset with rawLevel := true, settleDeadline := some 0 }).line 5).settleDeadline = some 0 ∧
      0 ≤ (lined { Line.reset with rawLevel := true, settleDeadline := some 0 }).clock.us := by decide +kernel

/-- A length byte of 41 and of 40, a byte short and a byte over, a stray bit, a bad check byte, the code 0x77, an
operand too many, and a good frame. -/
theorem test_witness_FramesAreJudgedInOrder :
    40 < (41 : Byte).toNat ∧ (40 : Byte).toNat ≤ 40 ∧ (List.replicate 40 (0 : Byte)).length < (40 : Byte).toNat + 1 ∧
      (40 : Byte).toNat + 1 < (List.replicate 42 (0 : Byte)).length ∧
      (List.replicate 41 (0 : Byte)).length = (40 : Byte).toNat + 1 ∧ 0 < 1 ∧
      (0 : Byte) ≠ crc8 [0x31, 0] ∧ (0xEC : Byte) = crc8 [0x31, 0] ∧ ¬ NamesRequest 0x77 ∧ NamesRequest 0x31 ∧
      ¬ LengthAllowed 0x31 [0] ∧ LengthAllowed 0x31 [] ∧ LengthAllowed 0x61 [1, 3, 5] := by
  refine ⟨by decide, by decide, by decide, by decide, by decide, by decide, by decide +kernel, by decide +kernel, ?_,
    .inr ⟨0, by decide⟩, ?_, .inr (by decide), .inl ⟨rfl, 1, [3, 5], by decide⟩⟩
  · simp [NamesRequest, requestTable]
  · simp [LengthAllowed, requestTable]

/-- A window of each verdict, by either command; one with another direction byte and one without. -/
theorem test_witness_RejectedAndIncompleteWindows :
    OpensRequest (.frameRejected 0 [0x31, 0, 0] 0) 0 [0x31, 0, 0] 0 ∧
      OpensRequest (.incompleteFrame 0 (opened [0x31, 0]) 7) 0 [0x31, 0] 7 ∧ Ready one 0 ∧
      judgeFrame [0x31, 0, 0] 0 = .badFrame ∧ judgeFrame (requestFrame 0x77 []) 0 = .unknown ∧
      judgeFrame [0x31, 0] 7 = .incomplete ∧ judgeFrame [0x31, 0, 0xEC] 0 = .good 0x31 [] ∧
      requestParts (.readStatus 0) = some (0, 0x31, []) ∧ (one.port 0).state ≠ .down ∧ (0x77 : Byte) ≠ 0x5A ∧
      (0x77 : Byte) ≠ 0xC3 :=
  ⟨.inl rfl, .inr rfl, by unfold Ready Listens; decide +kernel⟩

/-- A request, a window and FRAME_WHILE_WORKING on a WORKING port; a port in a reset, in DOWN, and with a window open. -/
theorem test_witness_WorkingAndDownPortsTakeNoRequest :
    OpensRequest (.frameRejected 0 [0x31] 0) 0 [0x31] 0 ∧ requestParts (.readStatus 0) = some (0, 0x31, []) ∧
      Listens (ported .working) 0 ∧ ((ported .working).port 0).state = .working ∧ State.reset.sampled = false ∧
      ((ported .down).port 0).state = .down ∧ (ignoring.port 0).ignoring = true :=
  ⟨.inl rfl, by unfold Listens; decide +kernel⟩

/-- A read of the four bytes of an answer, one byte short of it, and a read of a WORKING and of an IDLE port. -/
theorem test_witness_AnswersAreReadOutAndKeptUntilWhole :
    Listens (ported .answered) 0 ∧ ((ported .answered).port 0).state = .answered ∧
      ((ported .answered).port 0).answerBuffer.length ≤ 4 ∧ 3 < ((ported .answered).port 0).answerBuffer.length ∧
      Listens (ported .working) 0 ∧ ((ported .working).port 0).state = .working ∧ Listens (ported .idle) 0 ∧
      ((ported .idle).port 0).state = .idle := by
  unfold Listens
  decide +kernel

theorem test_witness_RequestFramesComeBack :
    requestParts (.setMask 1 5) = some (1, 0x12, [5]) ∧ (Instr.setMask 1 5).wellFormed = true ∧
      judgeFrame [0x31, 0x00, 0xEC] 0 = .good 0x31 [] := by decide +kernel

theorem test_witness_CheckBytesAndAnswerFrames : (Answer.okWith (List.replicate 60 0)).data.length ≤ 60 := by decide

theorem test_witness_PortsDoNotReachOneAnother :
    (∃ t, exec (.setMask 1 5) holding = .next t) ∧ requestParts (.setMask 1 5) = some (1, 0x12, [5]) :=
  ⟨⟨_, rfl⟩, rfl⟩

/-- `holding` with DONE of its ticket waiting. -/
def queued : State := holding.setPending [.done 0 0x0020]

/-- The invariant holds of a state with a live ticket and a command that ends it. -/
theorem test_inv_queued : Inv queued where
  tickets := holding_tickets
  unique := holding_unique
  credits := by unfold CreditsKept; decide +kernel
  sources := by unfold SourcesKept ConfigKept RuntimeKept StateKept OwedInHostSet; decide +kernel
  markers := by unfold MarkersAgree; decide +kernel
  counts := by unfold CountsCapped; decide +kernel
  queues := by unfold QueuesCapped; decide +kernel
  limits := by unfold LimitsKept; decide +kernel
  lines := by unfold LinesKept LineKept; decide +kernel
  detached := by unfold DetachedKept; decide +kernel
  atn := by unfold AtnKept; decide +kernel
  edit :=
    ⟨by decide +kernel, by decide +kernel, by decide +kernel, by decide +kernel, by decide +kernel,
      fun e he => absurd he (by rw [show queued.edit.staged = [] from rfl]; exact List.not_mem_nil),
      by decide +kernel, by decide +kernel⟩
  faults := ⟨by decide +kernel, by decide +kernel, trivial⟩
  ports := by unfold PortsKept PortKept; decide +kernel
  clock := by unfold ClockKept; decide +kernel
  held := fun h => absurd h (by decide +kernel)

/-- A reset lasts in the state right after it is taken, and its premise is met there with a command to end it. -/
theorem test_witness_reset_held :
    ResetHeld (State.reset.setPending [.startUpAcceptance { levels := 0, openWindows := 0 }]) ∧
      (State.reset.setPending [.startUpAcceptance { levels := 0, openWindows := 0 }]).sampled = false ∧
      ∃ t, step (State.reset.setPending [.startUpAcceptance { levels := 0, openWindows := 0 }]) = .next t :=
  ⟨fun _ => ⟨rfl, by decide +kernel⟩, rfl, _, rfl⟩

/-- The premises of the five statements about what a step keeps. -/
theorem test_witness_invariants :
    AtnKept queued ∧ FaultsKept queued ∧ (∀ i : SourceId, StateKept i (queued.source i)) ∧ EditKept queued ∧
      PortsKept queued ∧ LimitsKept queued ∧ LinesKept queued ∧ ClockKept queued ∧ ResetHeld queued ∧ Inv queued ∧
      ∃ t, step queued = .next t :=
  ⟨test_inv_queued.atn, test_inv_queued.faults, fun i => (test_inv_queued.sources i).2.2.1, test_inv_queued.edit,
    test_inv_queued.ports, test_inv_queued.limits, test_inv_queued.lines, test_inv_queued.clock,
    test_inv_queued.held, test_inv_queued, _, rfl⟩

end Sys2Proof.Tests
end

section
/-! PROOFS. What a ready port makes of a request window, said once for every request: the port that passes it on, the
answer, the idle deadline, and what the answer leaves of the state that the block has made. -/

namespace Sys2Proof.Proofs

set_option Elab.async false

open Sys2Proof.Machine Sys2Proof.Stated

/-! ## A request on a ready port -/

/-- The state in which a block takes the request of command `c`: `h`'s port has passed it on (R153), and nothing else
has changed. -/
abbrev passedOn (c : Instr) (h : HostId) (s : State) : State := s.setPort h (workingPort c (s.port h))

theorem windowIgnored_of_ready {s : State} {h : HostId} (hr : Ready s h) : windowIgnored s h = false := by
  obtain ⟨⟨hsampled, hignoring⟩, hstate⟩ := hr
  refine windowIgnored_eq_false.mpr ⟨hsampled, fun hdown => ?_, hignoring⟩
  rcases hstate with hidle | hanswered
  · exact absurd (hidle.symm.trans hdown) (by decide)
  · exact absurd (hanswered.symm.trans hdown) (by decide)

theorem state_ne_working_of_ready {s : State} {h : HostId} (hr : Ready s h) : (s.port h).state ≠ .working := by
  rcases hr.2 with hs | hs <;> simp [hs]

/-- An IDLE or ANSWERED port, once it has passed on a good frame of `n` operands, is `workingPort`. -/
theorem passOn_putZeros {c : Instr} {n : Nat} {p : Port} (hp : p.state = .idle ∨ p.state = .answered)
    (hn : windowBytes c = n + 3) :
    (((p.putZeros (n + 3)).openRequest).disposeAnswer).passOn = workingPort c p := by
  rcases hp with hidle | hanswered
  · rw [passOn_idle (by simpa using hidle)]
    simp [workingPort, Port.putZeros, hidle, zerosOut, hn]
  · rw [passOn_answered (by simpa using hanswered)]
    simp [workingPort, Port.putZeros, hanswered, zerosOut, hn]

/-- R148, R153: a ready port passes the request on. -/
theorem request_of_ready {s : State} {h : HostId} {c : Instr} {n : Nat} {take : State → State} (hr : Ready s h)
    (hn : windowBytes c = n + 3) : request h n take s = take (passedOn c h s) := by
  rcases request_cases h n take s with ⟨hignored, _⟩ | ⟨_, hworking, _⟩ | ⟨_, _, htaken⟩
  · exact absurd hignored (by simp [windowIgnored_of_ready hr])
  · exact absurd hworking (state_ne_working_of_ready hr)
  · rw [htaken, passOn_putZeros hr.2 hn]

/-- R153, R162: the answer to a passed-on request, as `answeredPort` writes it. -/
theorem workingPort_answer (c : Instr) (p : Port) (a : Answer) (atn attached : Bool) :
    (workingPort c p).answer a (flagsByte atn attached (workingPort c p).prevUnread (workingPort c p).refused) =
      answeredPort p a atn attached (p.prevUnread || p.state == .answered) (zerosOut c) := rfl

/-! ## The answer to a request that its block has taken -/

/-- R127: a taken request restarts the idle deadline of the session that its host holds. -/
theorem restarted_of_touchIdle {h : HostId} {s v t : State} (hedit : v.edit = s.edit) (hnow : v.now = s.now)
    (ht : t.edit = (touchIdle h v).edit) : Restarted h s t := by
  unfold Restarted
  rw [ht]
  rcases touchIdle_cases h v with ⟨hholder, hflight, heq⟩ | ⟨hnot, heq⟩
  · rw [heq, ← hedit, ← hnow, if_pos ⟨hholder, hflight⟩]
    rfl
  · rw [heq, ← hedit, if_neg hnot]

/-- The answer changes the ports and the edit unit alone. -/
theorem answerRequest_frame (h : HostId) (v : State) (a : Answer) :
    answerRequest h (v, a) =
      { v with ports := (answerRequest h (v, a)).ports, edit := (answerRequest h (v, a)).edit } := by
  unfold answerRequest
  rw [formAnswer_frame, touchIdle_frame]

/-- A request on a ready port completes with its answer: `v` is the state its block has made of the one in which the
port passed it on, and the block has touched neither the ports nor the edit unit nor the time. -/
theorem exec_request_answers {c : Instr} {h : HostId} {s v : State} {a : Answer} {n : Nat}
    {take : State → State × Answer} (hr : Ready s h) (hn : windowBytes c = n + 3)
    (hexec : exec c s = .next (request h n (fun x => answerRequest h (take x)) s))
    (htake : take (passedOn c h s) = (v, a)) (hports : v.ports = (passedOn c h s).ports) (hedit : v.edit = s.edit)
    (hnow : v.now = s.now) :
    ∃ t, exec c s = .next t ∧ t = { v with ports := t.ports, edit := t.edit } ∧ Restarted h s t ∧
      Answers c h a s t := by
  have hport (x : HostId) : v.port x = if h = x then workingPort c (s.port h) else s.port x := by
    show v.ports[x] = _
    rw [hports]
    exact State.setPort_port s h (workingPort c (s.port h)) x
  refine ⟨answerRequest h (v, a), ?_, answerRequest_frame h v a, ?_, ?_, fun x hx => ?_⟩
  · rw [hexec, request_of_ready hr hn, htake]
  · exact restarted_of_touchIdle hedit hnow (formAnswer_edit _ h a)
  · simp [answerRequest, answerFlags, hport, workingPort_answer, unread]
  · simp [answerRequest, hport, Ne.symm hx]

/-- A request that its block answers without doing anything only answers. -/
theorem onlyAnswers_of_take {c : Instr} {h : HostId} {s : State} {a : Answer} {n : Nat}
    {take : State → State × Answer} (hr : Ready s h) (hn : windowBytes c = n + 3)
    (hexec : exec c s = .next (request h n (fun x => answerRequest h (take x)) s))
    (htake : take (passedOn c h s) = (passedOn c h s, a)) : OnlyAnswers c h a s :=
  exec_request_answers (v := passedOn c h s) hr hn hexec htake rfl rfl rfl

/-- A request whose block changes sources alone and then recomputes ATN: what `v`, the changed state, has as its sources
is what the request leaves, and every ATN shows R49's level. -/
theorem exec_request_changes_sources {c : Instr} {h : HostId} {s v : State} {a : Answer} {n : Nat}
    {take : State → State × Answer} (hr : Ready s h) (hn : windowBytes c = n + 3)
    (hexec : exec c s = .next (request h n (fun x => answerRequest h (take x)) s))
    (htake : take (passedOn c h s) = (recomputeAtn v, a)) (hv : v = { passedOn c h s with sources := v.sources }) :
    ∃ t, exec c s = .next t ∧
      t = { s with sources := t.sources, atn := t.atn, ports := t.ports, edit := t.edit } ∧
      (∀ j, t.source j = v.source j) ∧ AtnShown t ∧ Restarted h s t ∧ Answers c h a s t := by
  obtain ⟨w, rfl⟩ : ∃ w, v = { passedOn c h s with sources := w } := ⟨_, hv⟩
  obtain ⟨t, ht, hframe, hrestarted, hanswers⟩ := exec_request_answers hr hn hexec htake rfl rfl rfl
  have hlevel (x : HostId) : atnLevel t x = atnLevel { passedOn c h s with sources := w } x := by
    rw [hframe]
    rfl
  refine ⟨t, ht, ?_, fun j => ?_, fun x => ?_, hrestarted, hanswers⟩
  · rw [hframe]
    rfl
  · rw [hframe]
    exact recomputeAtn_source _ j
  · rw [hlevel, hframe]
    exact recomputeAtn_atnOf _ x

end Sys2Proof.Proofs
end

section
/-! PROOFS. The operations on one source record in the words of the statements: the level check (R15, R16), the marking
(R14, R19), the host set of an answer (R101); and the source a byte names. -/

namespace Sys2Proof.Proofs

set_option Elab.async false

open Sys2Proof.Machine Sys2Proof.Stated

/-! ## The source a byte names -/

theorem sourceOfByte_eq_none {b : Byte} (hb : 63 < b.toNat) : sourceOfByte b = none :=
  dif_neg (by omega)

theorem sourceOfByte_eq_some {b : Byte} {i : SourceId} (hb : b.toNat = i.val) : sourceOfByte b = some i := by
  simp only [sourceOfByte, hb, dif_pos i.isLt]

theorem toNat_ofNat_source (i : SourceId) : (BitVec.ofNat 8 i.val).toNat = i.val := by
  have hi := i.isLt
  simp only [BitVec.toNat_ofNat]
  omega

/-! ## The level check -/

theorem sourceTicket_eq_none_iff_any (s : State) (i : SourceId) :
    s.sourceTicket i = none ↔ (s.liveTickets.any fun u => u.source == i) = false := by
  simp [State.sourceTicket]

theorem levelActive_eq_true (s : State) (i : SourceId) :
    levelActive s i = true ↔ kindOf i = .watch ∧ levelHolds s (s.source i).config = true := by
  cases htrigger : (s.source i).config.trigger <;> simp [levelActive, levelHolds, htrigger]

/-- R15 and R16: the level check writes the checked record back. -/
theorem levelCheck_source_self (s : State) (i : SourceId) :
    (levelCheck i s).source i = checked s (s.liveTickets.any fun u => u.source == i) i (s.source i) := by
  simp only [levelCheck, checked, levelActive_eq_true, sourceTicket_eq_none_iff_any]
  by_cases hactive :
      (s.source i).state = .armed ∧ kindOf i = .watch ∧ levelHolds s (s.source i).config = true
  · rw [if_pos hactive, if_pos hactive]
    cases (s.source i).config.mode with
    | one => dsimp only; split <;> simp
    | each => simp [oweClear, Source.mapMarkers]
  · rw [if_neg hactive, if_neg hactive]

/-! ## Marking -/

theorem mark_eq_marked (m : Marker) : m.mark = marked m := by
  cases m <;> rfl

theorem markHosts_eq_markedBy (s : State) (also : HostId → Bool) (r : Source) :
    markHosts s also r = markedBy s also r := by
  simp only [markHosts, markedBy, Source.mapMarkers, mark_eq_marked]

/-! ## The reached set -/

/-- A host set spelled bit by bit, and the sum of its bits' weights (R160). -/
theorem hostSetByte_bits (a b c d : Bool) :
    hostSetByte (BitVec.ofBool d ++ BitVec.ofBool c ++ BitVec.ofBool b ++ BitVec.ofBool a) =
      (if a then 1 else 0) + (if b then 2 else 0) + (if c then 4 else 0) + (if d then 8 else 0) := by
  revert a b c d
  decide

theorem hostSetByte_reachedSet (s : State) (poster : HostId) (r : Source) :
    hostSetByte (reachedSet s poster r) =
      hostBits fun x => hasHost r.config.hostSet x && s.attached x && (r.config.echo || x != poster) :=
  hostSetByte_bits _ _ _ _

end Sys2Proof.Proofs
end

section
/-! PROOFS. POST to an ARMED posted source (R18, R19, R101, R105) and REARM (R10). -/

namespace Sys2Proof.Proofs

set_option Elab.async false

open Sys2Proof.Machine Sys2Proof.Stated

/-! ## POST -/

theorem exec_post (h : HostId) (b : Byte) (argument : Word) (s : State) :
    exec (.post h b argument) s = .next (request h 3 (fun x => answerRequest h (takePost h b argument x)) s) := rfl

theorem windowBytes_post (h : HostId) (b : Byte) (argument : Word) : windowBytes (.post h b argument) = 3 + 3 := rfl

section ArmedSource

variable {h : HostId} {i : SourceId} {s : State} (hkind : kindOf i = .posted) (hattached : s.attached h = true)
  (hposter : hasHost (s.source i).config.posters h = true) (harmed : (s.source i).state = .armed)
include hkind hattached hposter harmed

/-- R99, step 6, in ONE mode. -/
theorem takePost_one (argument : Word) (hmode : (s.source i).config.mode = .one) :
    takePost h (BitVec.ofNat 8 i.val) argument s = postOne i argument s := by
  simp [takePost, sourceOfByte_eq_some (toNat_ofNat_source i), hkind, hattached, hposter, harmed, hmode]

/-- R99, step 6, in EACH mode. -/
theorem takePost_each (argument : Word) (hmode : (s.source i).config.mode = .each) :
    takePost h (BitVec.ofNat 8 i.val) argument s = postEach h i argument s := by
  simp [takePost, sourceOfByte_eq_some (toNat_ofNat_source i), hkind, hattached, hposter, harmed, hmode]

end ArmedSource

theorem postOne_of_room {i : SourceId} {s : State} (argument : Word)
    (hroom : (s.source i).argQueue.length + s.heldArguments i < 4) :
    postOne i argument s =
      (recomputeAtn (s.setSource i { s.source i with argQueue := (s.source i).argQueue ++ [argument] }),
        .okWith
          [BitVec.ofNat 8 i.val, BitVec.ofNat 8 ((s.source i).argQueue.length + 1),
            if s.heldArguments i = 0 then 0 else 1]) := by
  have hheld : boolByte (0 < s.heldArguments i) = if s.heldArguments i = 0 then 0 else 1 := by
    by_cases hzero : s.heldArguments i = 0 <;> simp [boolByte, hzero, Nat.pos_iff_ne_zero]
  simp only [postOne, Config.queueCap, if_pos hroom, hheld, byteOf]

theorem postOne_of_full {i : SourceId} {s : State} (argument : Word)
    (hfull : 4 ≤ (s.source i).argQueue.length + s.heldArguments i) :
    postOne i argument s = (s, .bare .full) :=
  if_neg (Nat.not_lt.mpr hfull)

theorem postEach_eq (h : HostId) (i : SourceId) (argument : Word) (s : State) :
    postEach h i argument s =
      (recomputeAtn
          (s.setSource i
            (markedBy s (fun x => (s.source i).config.echo || x != h) { s.source i with mailbox := argument })),
        .okWith
          [BitVec.ofNat 8 i.val,
            hostBits fun x =>
              hasHost (s.source i).config.hostSet x && s.attached x && ((s.source i).config.echo || x != h)]) := by
  simp only [postEach, markHosts_eq_markedBy, hostSetByte_reachedSet, byteOf]
  rfl

/-- Settles O20: past R99's refusals the post is `postOne`, which appends below the cap of 4 and else answers FULL. -/
theorem postJoinsTheQueueOrIsFull : Obligations.PostJoinsTheQueueOrIsFull := by
  intro s h i argument hr hkind hattached hposter harmed hmode
  have htake :=
    takePost_one (s := passedOn (.post h (BitVec.ofNat 8 i.val) argument) h s) hkind hattached hposter harmed argument
      hmode
  refine ⟨fun hroom => ?_, fun hfull => ?_⟩
  · obtain ⟨t, ht, hframe, hsource, hatn, hrestarted, hanswers⟩ :=
      exec_request_changes_sources hr (windowBytes_post ..) (exec_post ..)
        (htake.trans (postOne_of_room argument hroom)) rfl
    exact ⟨t, ht, hframe, (hsource i).trans (State.setSource_source_self ..),
      fun j hj => (hsource j).trans (setSource_other _ _ hj.symm), hatn, hrestarted, hanswers⟩
  · exact onlyAnswers_of_take hr (windowBytes_post ..) (exec_post ..) (htake.trans (postOne_of_full argument hfull))

/-- Settles O21: past R99's refusals the post is `postEach`, which writes the mailbox and marks by R14. -/
theorem postWritesTheMailboxAndMarks : Obligations.PostWritesTheMailboxAndMarks := by
  intro s h i argument hr hkind hattached hposter harmed hmode
  have htake :=
    takePost_each (s := passedOn (.post h (BitVec.ofNat 8 i.val) argument) h s) hkind hattached hposter harmed argument
      hmode
  obtain ⟨t, ht, hframe, hsource, hatn, hrestarted, hanswers⟩ :=
    exec_request_changes_sources hr (windowBytes_post ..) (exec_post ..)
      (htake.trans (postEach_eq ..)) rfl
  exact ⟨t, ht, hframe, (hsource i).trans (State.setSource_source_self ..),
    fun j hj => (hsource j).trans (setSource_other _ _ hj.symm), hatn, hrestarted, hanswers⟩

/-! ## REARM -/

theorem exec_rearm (h : HostId) (b : Byte) (s : State) :
    exec (.rearm h b) s = .next (request h 1 (fun x => answerRequest h (takeRearm h b x)) s) := rfl

theorem windowBytes_rearm (h : HostId) (b : Byte) : windowBytes (.rearm h b) = 1 + 3 := rfl

theorem takeRearm_badValue {b : Byte} (h : HostId) (s : State) (hb : 63 < b.toNat) :
    takeRearm h b s = (s, .bare .badValue) := by
  simp only [takeRearm, sourceOfByte_eq_none hb]

section NamedSource

variable {h : HostId} {b : Byte} {i : SourceId} {s : State} (hb : b.toNat = i.val)
include hb

theorem takeRearm_notAttached (hattached : s.attached h = false) :
    takeRearm h b s = (s, .bare .notAttached) := by
  simp only [takeRearm, sourceOfByte_eq_some hb, hattached, if_true]

theorem takeRearm_denied (hattached : s.attached h = true) (hset : hasHost (s.source i).config.hostSet h = false) :
    takeRearm h b s = (s, .bare .denied) := by
  simp [takeRearm, sourceOfByte_eq_some hb, hattached, hset]

theorem takeRearm_wrongState (hattached : s.attached h = true) (hset : hasHost (s.source i).config.hostSet h = true)
    (hstate : (s.source i).state ≠ .faulted) : takeRearm h b s = (s, .bare .wrongState) := by
  simp [takeRearm, sourceOfByte_eq_some hb, hattached, hset, hstate]

theorem takeRearm_faulted (hattached : s.attached h = true) (hset : hasHost (s.source i).config.hostSet h = true)
    (hstate : (s.source i).state = .faulted) :
    takeRearm h b s = (recomputeAtn (levelCheck i (s.setSource i (rearmRuntime (s.source i)))), .okWith []) := by
  simp [takeRearm, sourceOfByte_eq_some hb, hattached, hset, hstate]

end NamedSource

/-- Settles O23: the four steps of R10 in order, then the rearming with the level check of the rearmed record. -/
theorem rearmReturnsAFaultedSourceToArmed : Obligations.RearmReturnsAFaultedSourceToArmed := by
  intro s h b hr
  have refused {a : Answer} (htake : takeRearm h b (passedOn (.rearm h b) h s) = (passedOn (.rearm h b) h s, a)) :
      OnlyAnswers (.rearm h b) h a s :=
    onlyAnswers_of_take hr (windowBytes_rearm h b) (exec_rearm h b s) htake
  refine ⟨fun hbad => refused (takeRearm_badValue h _ hbad), fun i hb => ⟨fun hattached => ?_,
    fun hattached hset => ?_, fun hattached hset hstate => ?_, fun hattached hset hstate => ?_⟩⟩
  · exact refused (takeRearm_notAttached hb hattached)
  · exact refused (takeRearm_denied hb hattached hset)
  · exact refused (takeRearm_wrongState hb hattached hset hstate)
  · obtain ⟨t, ht, hframe, hsource, hatn, hrestarted, hanswers⟩ :=
      exec_request_changes_sources hr (windowBytes_rearm h b) (exec_rearm h b s)
        (takeRearm_faulted hb hattached hset hstate) (levelCheck_frame _ i)
    refine ⟨t, ht, hframe, ?_, fun j hj => ?_, hatn, hrestarted, hanswers⟩
    · rw [hsource, levelCheck_source_self, State.setSource_source_self]
      rfl
    · rw [hsource, levelCheck_other _ hj.symm, setSource_other _ _ hj.symm]
      rfl

end Sys2Proof.Proofs
end

section
/-! PROOFS. The three requests that only read: READ_LINE (R37), READ_STATUS (R158) and FAULT_PEEK (R146), their data in
the bytes of the statements (R160, R163, R164). -/

namespace Sys2Proof.Proofs

open Sys2Proof.Machine Sys2Proof.Stated

/-! ## READ_LINE -/

theorem exec_readLine (h : HostId) (b : Byte) (s : State) :
    exec (.readLine h b) s = .next (request h 1 (fun x => answerRequest h (takeReadLine b x)) s) := rfl

theorem windowBytes_readLine (h : HostId) (b : Byte) : windowBytes (.readLine h b) = 1 + 3 := rfl

theorem takeReadLine_badValue {b : Byte} (s : State) (hb : 39 < b.toNat) :
    takeReadLine b s = (s, .bare .badValue) :=
  dif_neg (by omega)

theorem takeReadLine_named {b : Byte} {i : LineId} (s : State) (hb : b.toNat = i.val) :
    takeReadLine b s = (s, .okWith (lineData s.clock.us i (s.line i))) := by
  simp only [takeReadLine, hb, dif_pos i.isLt]

/-- The data of READ_LINE, settling or not (R37, R163). -/
theorem lineData_eq (us : Nat) (i : LineId) (l : Line) :
    lineData us i l =
      [BitVec.ofNat 8 i.val, if l.rawLevel then 1 else 0, if l.acceptedLevel then 1 else 0,
          if l.settleDeadline = none then 0 else 1] ++ wordBytes (BitVec.ofNat 16 l.settleUs) ++
        l.settleDeadline.elim [] fun d => wordBytes (BitVec.ofNat 16 (d - us)) := by
  cases hdeadline : l.settleDeadline <;>
    simp [lineData, Line.settling, hdeadline, byteOf, boolByte, wordOfNat]

/-! ## READ_STATUS -/

theorem exec_readStatus (h : HostId) (s : State) :
    exec (.readStatus h) s = .next (request h 0 (fun x => answerRequest h (takeReadStatus x)) s) := rfl

theorem windowBytes_readStatus (h : HostId) : windowBytes (.readStatus h) = 0 + 3 := rfl

theorem holderByte_eq (holder : Option HostId) :
    holderByte holder = holder.elim 0xFF fun x => BitVec.ofNat 8 x.val := by
  cases holder <;> rfl

theorem hostSetByte_attachedSet (s : State) : hostSetByte (attachedSet s) = hostBits fun x => s.attached x :=
  hostSetByte_bits _ _ _ _

/-- The data of READ_STATUS (R158, R163). -/
theorem statusData_eq (s : State) :
    statusData s =
      [0x64, 0x04, 1] ++ millisBytes s.now ++
        [BitVec.ofNat 8 s.liveTotal, s.edit.holder.elim 0xFF fun x => BitVec.ofNat 8 x.val,
          if s.edit.commitInFlight then 1 else 0, BitVec.ofNat 8 s.faults.records.length,
          hostBits fun x => s.attached x] := by
  have hpart : wordBytes Config.partCode ++ [Config.revision] = [0x64, 0x04, 1] := by decide
  simp only [statusData, hpart, holderByte_eq, hostSetByte_attachedSet, byteOf, boolByte]

/-! ## FAULT_PEEK -/

theorem exec_faultPeek (h : HostId) (s : State) :
    exec (.faultPeek h) s = .next (request h 0 (fun x => answerRequest h (takeFaultPeek x)) s) := rfl

theorem windowBytes_faultPeek (h : HostId) : windowBytes (.faultPeek h) = 0 + 3 := rfl

/-- R164: gap in bit 7 and the kind from bit 0, as the sum of their weights. -/
theorem gapByte_eq (gap : Bool) (code : BitVec 3) :
    BitVec.ofBool gap ++ 0#4 ++ code = BitVec.ofNat 8 (code.toNat + if gap then 128 else 0) := by
  revert gap code
  decide

/-- A fault record, kind by kind (R141, R164). -/
theorem recordBytes_eq_faultBytes (r : FaultRecord) : recordBytes r = faultBytes r := by
  obtain ⟨seq, timeMs, cause, gap⟩ := r
  simp only [recordBytes, gapByte_eq]
  cases cause with
  | abandoned i host n count =>
    cases host with
    | none => rfl
    | some h => rfl
  | overflow i => rfl
  | hostLost h tickets session => rfl
  | editExpired h => rfl

/-- R146: FAULT_PEEK shows the oldest records, at most four, and takes none. -/
theorem takeFaultPeek_eq (s : State) :
    takeFaultPeek s =
      (s, .okWith
        ([BitVec.ofNat 8 s.faults.records.length] ++ wordBytes s.faults.nextSeq ++
          [BitVec.ofNat 8 (min 4 s.faults.records.length)] ++ ((s.faults.records.take 4).map faultBytes).flatten)) := by
  have hrecords : recordBytes = faultBytes := funext recordBytes_eq_faultBytes
  simp only [takeFaultPeek, hrecords, List.flatMap_def, List.length_take, byteOf]

/-- Settles O26: each of the three leaves the state that the port passed on as it was, and answers the data of R163 and
R164. -/
theorem readLineStatusAndFaultPeek : Obligations.ReadLineStatusAndFaultPeek := by
  intro s h hr
  refine ⟨fun b hb => ?_, fun b i hb => ?_, ?_, ?_⟩
  · exact onlyAnswers_of_take hr (windowBytes_readLine h b) (exec_readLine h b s) (takeReadLine_badValue _ hb)
  · rw [← lineData_eq]
    exact onlyAnswers_of_take hr (windowBytes_readLine h b) (exec_readLine h b s) (takeReadLine_named _ hb)
  · rw [← statusData_eq]
    exact onlyAnswers_of_take hr (windowBytes_readStatus h) (exec_readStatus h s) rfl
  · exact onlyAnswers_of_take hr (windowBytes_faultPeek h) (exec_faultPeek h s) (takeFaultPeek_eq _)

end Sys2Proof.Proofs
end

section
/-! PROOFS. Raw changes that report no edge: a steady line with a settle time begins settling (R28), and a settling line
is steady again (R29). -/

namespace Sys2Proof.Proofs

open Sys2Proof.Machine Sys2Proof.Stated

/-- R27: a sample that differs from raw_level is a raw change. -/
theorem exec_rawChange_of_change {s : State} {l : LineId} {level : Bool} (hsampled : s.sampled = true)
    (hlevel : (s.line l).rawLevel ≠ level) : exec (.rawChange l level) s = .next (rawChange l level s) :=
  if_pos ⟨hsampled, hlevel⟩

/-- R28: a steady line with a settle time begins settling. -/
theorem rawChange_of_steady {s : State} {l : LineId} (level : Bool) (hsteady : (s.line l).settleDeadline = none)
    (htime : 0 < (s.line l).settleUs) :
    rawChange l level s =
      s.setLine l
        { s.line l with rawLevel := level, settleDeadline := some (s.clock.us + (s.line l).settleUs) } := by
  simp [rawChange, hsteady, Nat.ne_of_gt htime]

/-- R29: a raw change on a settling line cancels the settling. -/
theorem rawChange_of_settling {s : State} {l : LineId} (level : Bool) (hsettling : (s.line l).settleDeadline ≠ none) :
    rawChange l level s = s.setLine l { s.line l with rawLevel := level, settleDeadline := none } := by
  obtain ⟨d, hd⟩ := Option.ne_none_iff_exists'.mp hsettling
  simp [rawChange, hd]

/-- A raw change that only writes `l`'s record back: the record is what it writes, and nothing else changes. -/
theorem exec_rawChange_writes_line {s : State} {l : LineId} {level : Bool} {r : Line} (hsampled : s.sampled = true)
    (hlevel : (s.line l).rawLevel ≠ level) (hwrite : rawChange l level s = s.setLine l r) :
    ∃ t, exec (.rawChange l level) s = .next t ∧ t = { s with lines := t.lines } ∧ t.line l = r ∧
      ∀ j, j ≠ l → t.line j = s.line j :=
  ⟨s.setLine l r, (exec_rawChange_of_change hsampled hlevel).trans (congrArg _ hwrite), rfl,
    State.setLine_line_self .., fun j hj => State.setLine_line_ne s l r j hj.symm⟩

/-- Settles O46: whether the line settles decides which record the raw change writes. -/
theorem rawChangesBeginAndCancelSettling : Obligations.RawChangesBeginAndCancelSettling := by
  intro s l level hsampled hlevel
  refine ⟨fun hsteady htime => ?_, fun hsettling => ?_⟩
  · exact exec_rawChange_writes_line hsampled hlevel (rawChange_of_steady level hsteady htime)
  · exact exec_rawChange_writes_line hsampled hlevel (rawChange_of_settling level hsettling)

end Sys2Proof.Proofs
end

section
/-! PROOFS. SET_MASK (R46). First, for every request whose block ends by recomputing ATN, whatever else it has changed:
the outputs the request leaves show R49's level. -/

namespace Sys2Proof.Proofs

open Sys2Proof.Machine Sys2Proof.Stated

/-! ## A request whose block recomputes ATN -/

/-- A request on a ready port whose block makes `v` and then recomputes ATN: neither the answer nor the idle deadline
changes what R49 reads, so every ATN shows its level. -/
theorem exec_request_recomputes_atn {c : Instr} {h : HostId} {s v : State} {a : Answer} {n : Nat}
    {take : State → State × Answer} (hr : Ready s h) (hn : windowBytes c = n + 3)
    (hexec : exec c s = .next (request h n (fun x => answerRequest h (take x)) s))
    (htake : take (passedOn c h s) = (recomputeAtn v, a)) (hports : v.ports = (passedOn c h s).ports)
    (hedit : v.edit = s.edit) (hnow : v.now = s.now) :
    ∃ t, exec c s = .next t ∧ t = { v with atn := t.atn, ports := t.ports, edit := t.edit } ∧ AtnShown t ∧
      Restarted h s t ∧ Answers c h a s t := by
  obtain ⟨t, ht, hframe, hrestarted, hanswers⟩ :=
    exec_request_answers hr hn hexec htake ((recomputeAtn_ports v).trans hports) ((recomputeAtn_edit v).trans hedit)
      ((recomputeAtn_now v).trans hnow)
  have hatn (x : HostId) : t.atnOf x = atnLevel v x := by
    rw [hframe]
    exact recomputeAtn_atnOf v x
  have hlevel (x : HostId) : atnLevel t x = atnLevel v x := by
    rw [hframe]
    exact atnLevel_congr rfl rfl rfl rfl x
  refine ⟨t, ht, ?_, fun x => (hatn x).trans (hlevel x).symm, hrestarted, hanswers⟩
  rw [hframe]
  rfl

/-! ## SET_MASK -/

theorem exec_setMask (h : HostId) (mask : LaneMask) (s : State) :
    exec (.setMask h mask) s = .next (request h 1 (fun x => answerRequest h (takeSetMask h mask x)) s) := rfl

theorem windowBytes_setMask (h : HostId) (mask : LaneMask) : windowBytes (.setMask h mask) = 1 + 3 := rfl

theorem takeSetMask_notAttached {h : HostId} {s : State} (mask : LaneMask) (hattached : s.attached h = false) :
    takeSetMask h mask s = (s, .bare .notAttached) :=
  if_pos hattached

theorem takeSetMask_attached {h : HostId} {s : State} (mask : LaneMask) (hattached : s.attached h = true) :
    takeSetMask h mask s = (recomputeAtn (s.setHost h { s.host h with laneMask := mask }), .okWith [mask]) := by
  simp [takeSetMask, hattached]

/-- Settles O5: attachment decides whether the host table refuses or writes the mask into `h`'s record alone. -/
theorem setMaskReplacesTheMask : Obligations.SetMaskReplacesTheMask := by
  refine ⟨fun s h mask hr hattached => ?_, fun s h mask hr hattached => ?_⟩
  · obtain ⟨t, ht, hframe, hatn, hrestarted, hanswers⟩ :=
      exec_request_recomputes_atn hr (windowBytes_setMask h mask) (exec_setMask h mask s)
        (takeSetMask_attached mask hattached) rfl rfl rfl
    have hhost (x : HostId) : t.host x = (s.setHost h { s.host h with laneMask := mask }).host x := by
      rw [hframe]
      rfl
    refine ⟨t, ht, ?_, (hhost h).trans (State.setHost_host_self ..),
      fun x hx => (hhost x).trans (State.setHost_host_ne s h _ x hx.symm), hatn, hrestarted, hanswers⟩
    rw [hframe]
    rfl
  · exact onlyAnswers_of_take hr (windowBytes_setMask h mask) (exec_setMask h mask s)
      (takeSetMask_notAttached mask hattached)

end Sys2Proof.Proofs
end

section
/-! PROOFS. Deliverability (R47) and the level of ATN (R49), condition by condition. -/

namespace Sys2Proof.Proofs

open Sys2Proof.Machine Sys2Proof.Stated

/-- R42: credit is a live count below the limit. -/
theorem hasCredit_iff (s : State) (h : HostId) (k : LaneId) :
    hasCredit s h k = true ↔
      s.liveTickets.countP (fun u => u.host == h && u.lane == k) < s.creditLimit k :=
  decide_eq_true_iff

theorem sourceTicket_isNone_iff (s : State) (i : SourceId) :
    (s.sourceTicket i).isNone = true ↔ ∀ k : SlotId, ∀ u ∈ (s.slot k).ticket, u.source ≠ i := by
  rw [Option.isNone_iff_eq_none, sourceTicket_eq_none]
  rfl

/-- R47, condition 6: only the half for the source's own mode asks for anything. -/
theorem workWaits_iff (s : State) (i : SourceId) (h : HostId) :
    workWaits s i h = true ↔
      ((s.source i).config.mode = .one →
        0 < (if kindOf i = .posted then (s.source i).argQueue.length else (s.source i).pendingCount) ∧
          ∀ k : SlotId, ∀ u ∈ (s.slot k).ticket, u.source ≠ i) ∧
      ((s.source i).config.mode = .each → (s.source i).markerOf h = .owed) := by
  cases hmode : (s.source i).config.mode with
  | one => simp [workWaits, hmode, pendingOf, -Option.isNone_iff_eq_none, sourceTicket_isNone_iff]
  | each => simp [workWaits, hmode]

/-- R47: the six conditions, each in the model's own word. -/
theorem deliverable_iff (s : State) (i : SourceId) (h : HostId) :
    deliverable s i h = true ↔
      (s.source i).state = .armed ∧ s.attached h = true ∧ hasHost (s.source i).config.hostSet h = true ∧
        hasLane (s.host h).laneMask (s.source i).config.lane = true ∧
        hasCredit s h (s.source i).config.lane = true ∧ workWaits s i h = true := by
  simp only [deliverable, Bool.and_eq_true, beq_iff_eq]
  tauto

/-- R65: fewer than 32 live tickets is a slot without one. -/
theorem liveTotal_lt_iff (s : State) : s.liveTotal < 32 ↔ ∃ k : SlotId, (s.slot k).ticket = none := by
  have hlength : allSlots.length = 32 := List.length_finRange
  unfold State.liveTotal State.liveTickets
  rw [← hlength, List.length_filterMap_lt_length_iff_exists]
  simp [allSlots]

/-- R49: the level of ATN. -/
theorem atnLevel_iff (s : State) (h : HostId) :
    atnLevel s h = true ↔ s.attached h = true ∧ s.liveTotal < 32 ∧ ∃ i, deliverable s i h = true := by
  simp [atnLevel, allSources, and_assoc]

/-- Settles O11: R47 and R49 with credit, waiting work and room read out of slots and records. -/
theorem attentionIsTheSixConditions : Obligations.AttentionIsTheSixConditions := by
  refine ⟨fun s i h => ?_, fun s h => ?_⟩
  · rw [deliverable_iff, hasCredit_iff, workWaits_iff]
    rfl
  · rw [atnLevel_iff, liveTotal_lt_iff]
    rfl

end Sys2Proof.Proofs
end

section
/-! PROOFS. The selection of a claim (R56, R61, R63): the order of R61 as a lexicographic key, and of a list of sources
and a list of lanes the first by it. -/

namespace Sys2Proof.Proofs

open Sys2Proof.Machine Sys2Proof.Stated

/-! ## The order of R61 -/

/-- What R61 compares within a lane: rank, then number. -/
def rankKey (s : State) (i : SourceId) : Fin 16 ×ₗ SourceId := toLex ((s.source i).config.rank, i)

/-- What R61 compares: lane, then rank, then number. -/
def claimKey (s : State) (i : SourceId) : LaneId ×ₗ Fin 16 ×ₗ SourceId := toLex ((s.source i).config.lane, rankKey s i)

theorem before_iff_claimKey_le (s : State) (i j : SourceId) : Before s i j ↔ claimKey s i ≤ claimKey s j := by
  simp only [Before, claimKey, rankKey, Prod.Lex.toLex_le_toLex]

/-- No two sources stand at the same place in the order: the number decides last. -/
theorem claimKey_injective (s : State) : Function.Injective (claimKey s) := fun _ _ heq =>
  congrArg (fun key => (ofLex (ofLex key).2).2) heq

/-! ## The best source of a lane -/

/-- R61, step 4: the better of two sources is one of them, and stands at or before both. -/
theorem better_spec (s : State) (a b : SourceId) :
    (better s a b = a ∨ better s a b = b) ∧
      rankKey s (better s a b) ≤ rankKey s a ∧ rankKey s (better s a b) ≤ rankKey s b := by
  simp only [better, rankKey, Prod.Lex.toLex_le_toLex]
  split_ifs with hba hab hnum
  · exact ⟨.inr rfl, .inl hba, .inr ⟨rfl, le_rfl⟩⟩
  · exact ⟨.inl rfl, .inr ⟨rfl, le_rfl⟩, .inl hab⟩
  · exact ⟨.inr rfl, .inr ⟨le_antisymm (not_lt.mp hab) (not_lt.mp hba), hnum.le⟩, .inr ⟨rfl, le_rfl⟩⟩
  · exact ⟨.inl rfl, .inr ⟨rfl, le_rfl⟩, .inr ⟨le_antisymm (not_lt.mp hba) (not_lt.mp hab), not_lt.mp hnum⟩⟩

theorem bestOf_eq_none {s : State} {l : List SourceId} : bestOf s l = none ↔ l = [] := by
  cases l with
  | nil => simp [bestOf]
  | cons i rest => cases hrest : bestOf s rest <;> simp [bestOf, hrest]

/-- The best source of a list is in it, and stands at or before every one of it. -/
theorem bestOf_eq_some {s : State} {l : List SourceId} {i : SourceId} (hbest : bestOf s l = some i) :
    i ∈ l ∧ ∀ j ∈ l, rankKey s i ≤ rankKey s j := by
  induction l generalizing i with
  | nil => simp [bestOf] at hbest
  | cons a rest ih =>
    cases hrest : bestOf s rest with
    | none =>
      obtain rfl : a = i := by simpa [bestOf, hrest] using hbest
      simp [bestOf_eq_none.mp hrest]
    | some b =>
      obtain rfl : better s a b = i := by simpa [bestOf, hrest] using hbest
      obtain ⟨hb, hrestLe⟩ := ih hrest
      obtain ⟨heq, hleft, hright⟩ := better_spec s a b
      refine ⟨?_, fun j hj => ?_⟩
      · rcases heq with h | h <;> simp [h, hb]
      · rcases List.mem_cons.mp hj with rfl | hj
        · exact hleft
        · exact hright.trans (hrestLe j hj)

theorem mem_candidates {s : State} {h : HostId} {k : LaneId} {i : SourceId} :
    i ∈ candidates s h k ↔ deliverable s i h = true ∧ (s.source i).config.lane = k := by
  simp [candidates, allSources]

/-! ## The first lane that holds a deliverable source -/

theorem selectFrom_eq_none {s : State} {h : HostId} {l : List LaneId} (hnone : selectFrom s h l = none) (j : SourceId)
    (hj : deliverable s j h = true) : (s.source j).config.lane ∉ l := by
  induction l with
  | nil => exact List.not_mem_nil
  | cons k rest ih =>
    cases hbest : bestOf s (candidates s h k) with
    | some i => simp [selectFrom, hbest] at hnone
    | none =>
      have hlane : (s.source j).config.lane ≠ k := fun heq =>
        absurd (mem_candidates.mpr ⟨hj, heq⟩) (by simp [bestOf_eq_none.mp hbest])
      have hrest := ih (by simpa [selectFrom, hbest] using hnone)
      simp [hlane, hrest]

/-- R61, step 3: of lanes in order of priority the first that holds a deliverable source decides. -/
theorem selectFrom_eq_some {s : State} {h : HostId} {l : List LaneId} {i : SourceId} (hsorted : l.Pairwise (· < ·))
    (hsome : selectFrom s h l = some i) :
    (deliverable s i h = true ∧ (s.source i).config.lane ∈ l) ∧
      ∀ j, deliverable s j h = true → (s.source j).config.lane ∈ l → Before s i j := by
  induction l with
  | nil => simp [selectFrom] at hsome
  | cons k rest ih =>
    obtain ⟨hk, hsorted⟩ := List.pairwise_cons.mp hsorted
    cases hbest : bestOf s (candidates s h k) with
    | some a =>
      obtain rfl : a = i := by simpa [selectFrom, hbest] using hsome
      obtain ⟨hmem, hle⟩ := bestOf_eq_some hbest
      obtain ⟨hi, hlane⟩ := mem_candidates.mp hmem
      refine ⟨⟨hi, by simp [hlane]⟩, fun j hj hjl => (before_iff_claimKey_le s a j).mpr ?_⟩
      rw [claimKey, claimKey, Prod.Lex.toLex_le_toLex]
      rcases List.mem_cons.mp hjl with hjk | hjr
      · exact .inr ⟨hlane.trans hjk.symm, hle j (mem_candidates.mpr ⟨hj, hjk⟩)⟩
      · exact .inl (hlane ▸ hk _ hjr)
    | none =>
      obtain ⟨⟨hi, hlane⟩, hfirst⟩ := ih hsorted (by simpa [selectFrom, hbest] using hsome)
      refine ⟨⟨hi, List.mem_cons_of_mem k hlane⟩, fun j hj hjl => hfirst j hj ?_⟩
      refine (List.mem_cons.mp hjl).resolve_left fun hjk => ?_
      exact absurd (mem_candidates.mpr ⟨hj, hjk⟩) (by simp [bestOf_eq_none.mp hbest])

/-! ## The lanes of a choice -/

theorem pairwise_lanesFor (s : State) (h : HostId) (c : LaneChoice) : (lanesFor s h c).Pairwise (· < ·) := by
  cases c with
  | any => exact List.Pairwise.filter _ (List.pairwise_lt_finRange 8)
  | lane k => by_cases hcredit : hasCredit s h k = true <;> simp [lanesFor, hcredit]

/-- R56: mask and credit leave out no lane of a deliverable source (R47), so only the choice does. -/
theorem mem_lanesFor {s : State} {h : HostId} {i : SourceId} (hi : deliverable s i h = true) (c : LaneChoice) :
    (s.source i).config.lane ∈ lanesFor s h c ↔ Allows (s.source i).config.lane c := by
  obtain ⟨_, _, _, hmask, hcredit, _⟩ := (deliverable_iff s i h).mp hi
  cases c with
  | any => simp [lanesFor, Allows, allLanes, hmask, hcredit]
  | lane k =>
    by_cases hk : (s.source i).config.lane = k
    · subst hk
      simp [lanesFor, Allows, hcredit]
    · by_cases hother : hasCredit s h k = true <;> simp [lanesFor, Allows, hk, hother]

/-! ## The selection -/

theorem best_of_select {s : State} {h : HostId} {c : LaneChoice} {i : SourceId} (hsel : select s h c = some i) :
    Best s h c i := by
  obtain ⟨⟨hi, hlane⟩, hfirst⟩ := selectFrom_eq_some (pairwise_lanesFor s h c) hsel
  exact ⟨⟨hi, (mem_lanesFor hi c).mp hlane⟩, fun j hj hjc => hfirst j hj ((mem_lanesFor hj c).mpr hjc)⟩

theorem nothingFor_of_select {s : State} {h : HostId} {c : LaneChoice} (hsel : select s h c = none) :
    NothingFor s h c :=
  fun j hj hallows => selectFrom_eq_none hsel j hj ((mem_lanesFor hj c).mpr hallows)

theorem best_unique {s : State} {h : HostId} {c : LaneChoice} {i j : SourceId} (hi : Best s h c i)
    (hj : Best s h c j) : i = j := by
  obtain ⟨⟨hdi, hai⟩, hfirsti⟩ := hi
  obtain ⟨⟨hdj, haj⟩, hfirstj⟩ := hj
  have hij := (before_iff_claimKey_le s i j).mp (hfirsti j hdj haj)
  have hji := (before_iff_claimKey_le s j i).mp (hfirstj i hdi hai)
  exact claimKey_injective s (le_antisymm hij hji)

theorem select_eq_some_iff {s : State} {h : HostId} {c : LaneChoice} {i : SourceId} :
    select s h c = some i ↔ Best s h c i := by
  refine ⟨best_of_select, fun hbest => ?_⟩
  cases hsel : select s h c with
  | none =>
    obtain ⟨⟨hi, hallows⟩, _⟩ := hbest
    exact absurd hallows (nothingFor_of_select hsel i hi)
  | some j => rw [best_unique (best_of_select hsel) hbest]

theorem select_eq_none_iff {s : State} {h : HostId} {c : LaneChoice} : select s h c = none ↔ NothingFor s h c := by
  refine ⟨nothingFor_of_select, fun hnothing => ?_⟩
  cases hsel : select s h c with
  | none => rfl
  | some j =>
    obtain ⟨⟨hj, hallows⟩, _⟩ := best_of_select hsel
    exact absurd hallows (hnothing j hj)

/-- Settles O7: what the selection gives is the first by R61, of which there is one; what gives none holds nothing. -/
theorem selectionIsByLaneRankAndNumber : Obligations.SelectionIsByLaneRankAndNumber :=
  fun _ _ _ => ⟨fun _ => select_eq_some_iff, select_eq_none_iff⟩

end Sys2Proof.Proofs
end

section
/-! PROOFS. Ticket numbers, sequence counters and live numbers (R66). -/

namespace Sys2Proof.Proofs

open Sys2Proof.Machine Sys2Proof.Stated

/-! ## The two parts of a number -/

/-- Two bit fields side by side, as the sum of their weights. -/
theorem toNat_append_eq_add {m n : Nat} (x : BitVec m) (y : BitVec n) :
    (x ++ y).toNat = x.toNat * 2 ^ n + y.toNat := by
  rw [BitVec.toNat_append, ← Nat.shiftLeft_add_eq_or_of_lt y.isLt, Nat.shiftLeft_eq]

theorem slotOf_val (n : Word) : (slotOf n).val = n.toNat % 32 := by
  simp [slotOf]

theorem sequenceOf_toNat (n : Word) : (sequenceOf n).toNat = n.toNat / 32 := by
  have hn := n.isLt
  simp only [sequenceOf, BitVec.extractLsb'_toNat, Nat.shiftRight_eq_div_pow]
  omega

theorem ticketNumber_toNat (q : BitVec 11) (k : SlotId) : (ticketNumber q k).toNat = q.toNat * 32 + k.val := by
  have hk := k.isLt
  rw [ticketNumber, toNat_append_eq_add, BitVec.toNat_ofNat]
  omega

theorem slotOf_ticketNumber (q : BitVec 11) (k : SlotId) : slotOf (ticketNumber q k) = k := by
  have hk := k.isLt
  apply Fin.ext
  rw [slotOf_val, ticketNumber_toNat]
  omega

theorem sequenceOf_ticketNumber (q : BitVec 11) (k : SlotId) : sequenceOf (ticketNumber q k) = q :=
  BitVec.extractLsb'_append_eq_left

/-! ## The sequence counter -/

theorem advanceSequence_toNat {q : BitVec 11} (hq : q ≠ 2047) : (advanceSequence q).toNat = q.toNat + 1 := by
  rw [advanceSequence, if_neg hq]
  bv_omega

/-! ## Live numbers -/

/-- R66: the live test compares the two parts of the number as numbers. -/
theorem findLive_eq_some_iff {s : State} {n : Word} {tk : Ticket} :
    s.findLive n = some tk ↔
      (s.slot (slotOf n)).ticket = some tk ∧ n.toNat / 32 ≠ 0 ∧ tk.number.toNat / 32 = n.toNat / 32 := by
  have hparts : sequenceOf n ≠ 0 ∧ sequenceOf tk.number = sequenceOf n ↔
      n.toNat / 32 ≠ 0 ∧ tk.number.toNat / 32 = n.toNat / 32 := by
    simp [BitVec.toNat_eq, sequenceOf_toNat]
  rw [← hparts]
  exact ⟨findLive_eq_some, fun ⟨hslot, hzero, hsequence⟩ => findLive_of_slot hslot hzero hsequence⟩

/-- Settles O10: the number's parts, the counter, and the live test with the slot named by the number's low bits. -/
theorem ticketNumbersNameSlotAndSequence : Obligations.TicketNumbersNameSlotAndSequence := by
  refine ⟨fun q k => ⟨ticketNumber_toNat q k, slotOf_ticketNumber q k, sequenceOf_ticketNumber q k⟩,
    fun q => ⟨fun hq => if_pos hq, advanceSequence_toNat, advanceSequence_ne_zero q⟩, fun s n tk => ?_⟩
  rw [findLive_eq_some_iff]
  constructor
  · intro hlive
    exact ⟨slotOf n, (slotOf_val n).symm, hlive⟩
  · rintro ⟨k, hk, hlive⟩
    obtain rfl : slotOf n = k := Fin.ext ((slotOf_val n).trans hk)
    exact hlive

end Sys2Proof.Proofs
end

section
/-! PROOFS. CLAIM_TAKEN: the rotation of R58, the code of a choice (R160), the answers of R55 that issue nothing, and,
for whatever the arbiter answers, what the forming of a waiting answer leaves (R57, R153). -/

namespace Sys2Proof.Proofs

open Sys2Proof.Machine Sys2Proof.Stated

/-! ## The next claim -/

/-- R58: the order of the rotation, by the distance from the port after the pointer. -/
theorem rotationOrder_getElem (pointer : HostId) (d : Fin 4) : (rotationOrder pointer)[d.val] = pointer + 1 + d := by
  revert pointer d
  decide

theorem nextClaim_of_isNext {s : State} {h : HostId} {b : Byte} (hnext : IsNext s h b) : nextClaim s = some (h, b) := by
  obtain ⟨hwaits, hfirst⟩ := hnext
  have hat : (rotationOrder s.rotation)[(h - (s.rotation + 1)).val] = h := by
    rw [rotationOrder_getElem, add_sub_cancel]
  have hfind : (rotationOrder s.rotation).find? (fun x => (s.waitingClaim x).isSome) = some h := by
    refine List.find?_eq_some_iff_getElem.mpr ⟨by simp [hwaits], _, (h - (s.rotation + 1)).isLt, hat, fun j hj => ?_⟩
    have hj4 : j < 4 := hj.trans (h - (s.rotation + 1)).isLt
    have hbefore := rotationOrder_getElem s.rotation ⟨j, hj4⟩
    rw [hbefore, Bool.not_eq_true', ← Bool.not_eq_true]
    intro hwaiting
    have hle := hfirst _ hwaiting
    rw [add_sub_cancel_left] at hle
    exact absurd hj (not_lt.mpr hle)
  simp [nextClaim, hfind, hwaits]

/-! ## The code of a choice -/

theorem laneChoiceOf_any : laneChoiceOf 0xFF = some .any := rfl

theorem laneChoiceOf_lane (k : LaneId) : laneChoiceOf (BitVec.ofNat 8 k.val) = some (.lane k) := by
  revert k
  decide

/-- R160: 0xFF and the lane numbers are the codes of the choices. -/
theorem laneChoiceOf_eq_some_iff {b : Byte} {c : LaneChoice} : laneChoiceOf b = some c ↔ Names b c := by
  constructor
  · intro hchoice
    unfold laneChoiceOf at hchoice
    split at hchoice
    · next hany =>
      cases hchoice
      exact hany
    · split at hchoice
      · cases hchoice
        exact (BitVec.ofNat_toNat 8 b).symm
      · cases hchoice
  · intro hnames
    cases c with
    | any => exact hnames ▸ laneChoiceOf_any
    | lane k => exact hnames ▸ laneChoiceOf_lane k

theorem laneChoiceOf_eq_none {b : Byte} (hb : ∀ c, ¬ Names b c) : laneChoiceOf b = none :=
  Option.eq_none_iff_forall_ne_some.mpr fun c hc => hb c (laneChoiceOf_eq_some_iff.mp hc)

/-! ## The answers of R55 -/

theorem takeClaim_notAttached {s : State} {h : HostId} (b : Byte) (hattached : s.attached h = false) :
    takeClaim h b s = (s, .bare .notAttached) :=
  if_pos hattached

theorem takeClaim_noChoice {s : State} {h : HostId} {b : Byte} (hattached : s.attached h = true)
    (hb : ∀ c, ¬ Names b c) : takeClaim h b s = (s, .bare .badValue) := by
  simp [takeClaim, hattached, laneChoiceOf_eq_none hb]

section NamedChoice

variable {s : State} {h : HostId} {b : Byte} {c : LaneChoice}

theorem takeClaim_outsideMask (hattached : s.attached h = true) (hb : Names b c)
    (hadmitted : choiceAdmitted s h c = false) : takeClaim h b s = (s, .bare .badValue) := by
  simp [takeClaim, hattached, laneChoiceOf_eq_some_iff.mpr hb, hadmitted]

theorem takeClaim_full (hattached : s.attached h = true) (hb : Names b c) (hadmitted : choiceAdmitted s h c = true)
    (hfull : 32 ≤ s.liveTotal) : takeClaim h b s = (s, .bare .full) := by
  simp [takeClaim, hattached, laneChoiceOf_eq_some_iff.mpr hb, hadmitted, hfull]

/-- R55, steps 1 to 3 passed: the arbiter selects. -/
theorem takeClaim_serves (hattached : s.attached h = true) (hb : Names b c) (hadmitted : choiceAdmitted s h c = true)
    (hroom : s.liveTotal < 32) : takeClaim h b s = serveClaim h c s := by
  simp [takeClaim, hattached, laneChoiceOf_eq_some_iff.mpr hb, hadmitted, Nat.not_le.mpr hroom]

theorem serveClaim_nothing (hnothing : NothingFor s h c) : serveClaim h c s = (s, .bare .none) := by
  simp [serveClaim, select_eq_none_iff.mpr hnothing]

end NamedChoice

/-! ## The claim as it is taken -/

/-- The state in which the arbiter takes the claim of `h`: it waits no more, and the pointer names `h` (R57, R58). -/
abbrev claimOff (h : HostId) (s : State) : State := (s.setWaiting h none).setRotation h

theorem claimOff_waitingClaim_self (h : HostId) (s : State) : (claimOff h s).waitingClaim h = none :=
  State.setWaiting_waitingClaim_self s h none

theorem claimOff_waitingClaim_ne {h x : HostId} (s : State) (hx : x ≠ h) :
    (claimOff h s).waitingClaim x = s.waitingClaim x :=
  State.setWaiting_waitingClaim_ne s h none x hx.symm

/-- R57, R153: the next claim is taken and answered. `v` is the state the arbiter has made, with the ports, the edit
unit and the time as they were. -/
theorem exec_claimTaken_answers {s v : State} {h : HostId} {b : Byte} {a : Answer} (hnext : IsNext s h b)
    (htake : takeClaim h b (claimOff h s) = (v, a)) (hports : v.ports = s.ports) (hedit : v.edit = s.edit)
    (hnow : v.now = s.now) :
    ∃ t, exec .claimTaken s = .next t ∧ t = { v with ports := t.ports, edit := t.edit } ∧ Restarted h s t ∧
      AnswersWaiting h a s t := by
  have hport (x : HostId) : v.port x = s.port x := congrArg (fun ports => ports[x]) hports
  refine ⟨answerRequest h (v, a), ?_, answerRequest_frame h v a, ?_, ?_, fun x hx => ?_⟩
  · show execClaimTaken s = _
    simp only [execClaimTaken, nextClaim_of_isNext hnext, htake]
  · exact restarted_of_touchIdle hedit hnow (formAnswer_edit _ h a)
  · simp [answerRequest, answerFlags, hport, answeredPort, Port.answer]
  · simp [answerRequest, hport, Ne.symm hx]

/-- A claim that the arbiter answers without doing anything leaves no other trace. -/
theorem exec_claimTaken_only_answers {s : State} {h : HostId} {b : Byte} {a : Answer} (hnext : IsNext s h b)
    (htake : takeClaim h b (claimOff h s) = (claimOff h s, a)) :
    ∃ t, exec .claimTaken s = .next t ∧
      t = { s with waiting := t.waiting, rotation := h, ports := t.ports, edit := t.edit } ∧
      t.waitingClaim h = none ∧ (∀ x, x ≠ h → t.waitingClaim x = s.waitingClaim x) ∧
      Restarted h s t ∧ AnswersWaiting h a s t := by
  obtain ⟨t, ht, hframe, hrestarted, hanswers⟩ := exec_claimTaken_answers hnext htake rfl rfl rfl
  have hwaiting (x : HostId) : t.waitingClaim x = (claimOff h s).waitingClaim x := by
    rw [hframe]
    rfl
  refine ⟨t, ht, ?_, (hwaiting h).trans (claimOff_waitingClaim_self h s),
    fun x hx => (hwaiting x).trans (claimOff_waitingClaim_ne s hx), hrestarted, hanswers⟩
  rw [hframe]
  rfl

/-- Settles O9: each of the four answers leaves the state in which the arbiter takes the claim as it was. -/
theorem claimTakenWithoutATicket : Obligations.ClaimTakenWithoutATicket := by
  intro s h b st hnext hcase
  refine exec_claimTaken_only_answers hnext ?_
  rcases hcase with ⟨hattached, rfl⟩ | ⟨hattached, hb, rfl⟩ | ⟨hattached, ⟨c, hb, hadmitted⟩, rfl⟩ |
    ⟨hattached, ⟨c, hb, hadmitted⟩, hfull, rfl⟩ | ⟨hattached, hroom, ⟨c, hb, hadmitted, hnothing⟩, rfl⟩
  · exact takeClaim_notAttached b hattached
  · exact takeClaim_noChoice hattached hb
  · exact takeClaim_outsideMask hattached hb hadmitted
  · exact takeClaim_full hattached hb hadmitted hfull
  · rw [takeClaim_serves (s := claimOff h s) hattached hb hadmitted hroom]
    exact serveClaim_nothing hnothing

end Sys2Proof.Proofs
end

section
/-! PROOFS. READ_TICKETS (R77, R78, R163): the page that the model lists slot by slot, and its entries byte by byte. -/

namespace Sys2Proof.Proofs

open Sys2Proof.Machine Sys2Proof.Stated Sys2Proof.Safety

/-! ## One entry -/

/-- R163: the host from bit 4 and the lane from bit 0, as the sum of their weights. -/
theorem hostLaneByte_eq (h : HostId) (k : LaneId) :
    0#2 ++ BitVec.ofNat 2 h.val ++ 0#1 ++ BitVec.ofNat 3 k.val = BitVec.ofNat 8 (h.val * 16 + k.val) := by
  revert h k
  decide

/-- R163: two halves of a byte; the lower number has to fit its half. -/
theorem halvesByte_eq (high : Nat) {low : Nat} (hlow : low ≤ 15) :
    BitVec.ofNat 4 high ++ BitVec.ofNat 4 low = BitVec.ofNat 8 (high * 16 + low) := by
  apply BitVec.eq_of_toNat_eq
  rw [toNat_append_eq_add]
  simp only [BitVec.toNat_ofNat]
  omega

theorem ticketEntry_eq_entryBytes (now : Millis) (h : HostId) {t : Ticket} (hextensions : t.extensions ≤ 15) :
    ticketEntry now h t = entryBytes now h t := by
  simp only [ticketEntry, entryBytes, hostLaneByte_eq, halvesByte_eq t.attempt hextensions]
  cases t.deadlineMs <;> cases t.argument <;> simp [byteOf, wordOfNat, msUntil]

/-! ## The page -/

theorem mem_listedFrom {s : State} {first : Nat} {x : SlotId × Ticket} (hx : x ∈ listedFrom s first) :
    (s.slot x.1).ticket = some x.2 := by
  obtain ⟨k, -, hk⟩ := List.mem_filterMap.mp hx
  split at hk
  · obtain ⟨t, ht, rfl⟩ := Option.map_eq_some_iff.mp hk
    exact ht
  · cases hk

/-- The slots of `listedFrom`: the occupied ones at `first` and above, in slot order (R77). -/
theorem map_fst_listedFrom (s : State) (first : Nat) :
    (listedFrom s first).map Prod.fst =
      allSlots.filter fun k => decide (first ≤ k.val) && (s.slot k).ticket.isSome := by
  rw [listedFrom, List.map_filterMap, ← List.filterMap_eq_filter]
  refine List.filterMap_congr fun k _ => ?_
  by_cases hfirst : first ≤ k.val <;> cases hticket : (s.slot k).ticket <;> simp [hfirst, hticket, Option.guard]

/-- The tickets of any part of the list are those in its slots. -/
theorem filterMap_ticket_map_fst {s : State} {l : List (SlotId × Ticket)}
    (hl : ∀ x ∈ l, (s.slot x.1).ticket = some x.2) :
    (l.map Prod.fst).filterMap (fun k => (s.slot k).ticket) = l.map Prod.snd := by
  rw [List.filterMap_map]
  exact List.filterMap_eq_map_iff_forall_eq_some.mpr hl

theorem nextSlotByte_drop (l : List (SlotId × Ticket)) (n : Nat) :
    nextSlotByte (l.drop n) = ((l.map Prod.fst)[n]?).elim 0xFF fun k => BitVec.ofNat 8 k.val := by
  rw [List.getElem?_map, ← List.head?_drop]
  cases l.drop n <;> rfl

/-! ## READ_TICKETS -/

theorem exec_readTickets (h : HostId) (b : Byte) (s : State) :
    exec (.readTickets h b) s = .next (request h 1 (fun x => answerRequest h (takeReadTickets h b x)) s) := rfl

theorem windowBytes_readTickets (h : HostId) (b : Byte) : windowBytes (.readTickets h b) = 1 + 3 := rfl

theorem takeReadTickets_badValue {b : Byte} (h : HostId) (s : State) (hb : 31 < b.toNat) :
    takeReadTickets h b s = (s, .bare .badValue) :=
  if_pos hb

/-- R77: the page of the slots at `b` and above, the tickets' records being kept. -/
theorem takeReadTickets_page {s : State} {b : Byte} {slots : List SlotId} (h : HostId) (hkept : TicketsKept s)
    (hb : b.toNat ≤ 31)
    (hslots : slots = allSlots.filter fun k => decide (b.toNat ≤ k.val) && (s.slot k).ticket.isSome) :
    takeReadTickets h b s =
      (s, .okWith
        ([BitVec.ofNat 8 s.liveTotal,
            BitVec.ofNat 8 ((slots.take 3).filterMap fun k => (s.slot k).ticket).length,
            (slots[3]?).elim 0xFF fun k => BitVec.ofNat 8 k.val] ++
          (((slots.take 3).filterMap fun k => (s.slot k).ticket).map (entryBytes s.now h)).flatten)) := by
  have hpage : ∀ x ∈ (listedFrom s b.toNat).take 3, (s.slot x.1).ticket = some x.2 := fun x hx =>
    mem_listedFrom (List.mem_of_mem_take hx)
  have hentries : ((listedFrom s b.toNat).take 3).flatMap (fun x => ticketEntry s.now h x.2) =
      ((((listedFrom s b.toNat).take 3).map Prod.snd).map (entryBytes s.now h)).flatten := by
    rw [List.map_map, ← List.flatMap_def]
    refine List.flatMap_congr fun x hx => ?_
    obtain ⟨⟨-, -, -, -, -, -, -, hextensions, -⟩, -⟩ := hkept x.1 x.2 (hpage x hx)
    exact ticketEntry_eq_entryBytes s.now h hextensions
  rw [hslots, ← map_fst_listedFrom, ← List.map_take, filterMap_ticket_map_fst hpage, ← nextSlotByte_drop, ← hentries,
    List.length_map]
  exact if_neg (Nat.not_lt.mpr hb)

/-- Settles O25: above slot 31 the ticket table refuses, else it lists the page; either way it changes nothing. -/
theorem readTicketsListsAPage : Obligations.ReadTicketsListsAPage := by
  intro s h b hkept hr
  refine ⟨fun hb => ?_, fun hb => ?_⟩
  · exact onlyAnswers_of_take hr (windowBytes_readTickets h b) (exec_readTickets h b s)
      (takeReadTickets_badValue h _ hb)
  · exact onlyAnswers_of_take hr (windowBytes_readTickets h b) (exec_readTickets h b s)
      (takeReadTickets_page (s := passedOn (.readTickets h b) h s) h hkept hb rfl)

end Sys2Proof.Proofs
end

section
/-! PROOFS. The requests against a ticket: the checks of R79 before DONE, DEFER and EXTEND act, and EXTEND (R86). -/

namespace Sys2Proof.Proofs

set_option Elab.async false

open Sys2Proof.Machine Sys2Proof.Stated

/-! ## The three requests -/

theorem exec_done (h : HostId) (n : Word) (s : State) :
    exec (.done h n) s = .next (request h 2 (fun x => answerRequest h (takeDone h n x)) s) := rfl

theorem windowBytes_done (h : HostId) (n : Word) : windowBytes (.done h n) = 2 + 3 := rfl

theorem exec_defer (h : HostId) (n : Word) (s : State) :
    exec (.defer h n) s = .next (request h 2 (fun x => answerRequest h (takeDefer h n x)) s) := rfl

theorem windowBytes_defer (h : HostId) (n : Word) : windowBytes (.defer h n) = 2 + 3 := rfl

theorem exec_extend (h : HostId) (n : Word) (s : State) :
    exec (.extend h n) s = .next (request h 2 (fun x => answerRequest h (takeExtend h n x)) s) := rfl

theorem windowBytes_extend (h : HostId) (n : Word) : windowBytes (.extend h n) = 2 + 3 := rfl

/-! ## The checks of R79 -/

section Checks

variable {h : HostId} {n : Word} {s : State} (act : Ticket → State × Answer)

theorem withTicket_stale (hnone : s.findLive n = none) : withTicket h n act s = (s, .bare .stale) := by
  simp only [withTicket, hnone]

theorem withTicket_denied {u : Ticket} (hlive : s.findLive n = some u) (hother : u.host ≠ h) :
    withTicket h n act s = (s, .bare .denied) := by
  simp only [withTicket, hlive, if_neg hother]

theorem withTicket_own {tk : Ticket} (hlive : s.findLive n = some tk) (hown : tk.host = h) :
    withTicket h n act s = act tk := by
  simp only [withTicket, hlive, if_pos hown]

end Checks

/-- R66: a number is not live when its sequence part is 0, its slot is free, or its slot holds another sequence. -/
theorem findLive_eq_none {s : State} {n : Word}
    (hdead : n.toNat / 32 = 0 ∨ ∀ u ∈ (s.slot (slotOf n)).ticket, u.number.toNat / 32 ≠ n.toNat / 32) :
    s.findLive n = none := by
  refine Option.eq_none_iff_forall_ne_some.mpr fun u hu => ?_
  obtain ⟨hslot, hzero, hsequence⟩ := findLive_eq_some_iff.mp hu
  rcases hdead with hpart | hslots
  · exact hzero hpart
  · exact hslots u hslot hsequence

/-- DONE, DEFER and EXTEND are windows of one length, and each acts behind the checks of R79. -/
theorem exec_withTicket {c : Instr} {h : HostId} {n : Word}
    (hc : c = .done h n ∨ c = .defer h n ∨ c = .extend h n) :
    windowBytes c = 2 + 3 ∧
      ∃ act : State → Ticket → State × Answer, ∀ s,
        exec c s = .next (request h 2 (fun x => answerRequest h (withTicket h n (act x) x)) s) := by
  rcases hc with rfl | rfl | rfl
  · exact ⟨rfl, _, exec_done h n⟩
  · exact ⟨rfl, _, exec_defer h n⟩
  · exact ⟨rfl, _, exec_extend h n⟩

/-- Settles O15: a check of R79 that fails answers before anything is done, whichever of the three requests it is. -/
theorem numbersNotOnesOwnAreRefused : Obligations.NumbersNotOnesOwnAreRefused := by
  intro s h n c hc hr
  obtain ⟨hbytes, act, hexec⟩ := exec_withTicket hc
  refine ⟨fun hdead => ?_, fun u hlive hother => ?_⟩
  · exact onlyAnswers_of_take hr hbytes (hexec s) (withTicket_stale _ (findLive_eq_none hdead))
  · exact onlyAnswers_of_take hr hbytes (hexec s) (withTicket_denied _ hlive hother)

/-! ## EXTEND -/

section Extend

variable {tk : Ticket} (k : SlotId) (s : State)

theorem extendLease_noLease (hlease : tk.leaseMs = 0) :
    extendLease k tk s = (s, .okWith (wordBytes tk.number ++ [BitVec.ofNat 8 tk.extensions])) :=
  if_pos hlease

theorem extendLease_below (hlease : 0 < tk.leaseMs) (hroom : tk.extensions < 15) :
    extendLease k tk s =
      (s.setSlot k { s.slot k with ticket := some (extendTicket s.now tk) },
        .okWith
          (wordBytes tk.number ++ [BitVec.ofNat 8 (tk.extensions + 1)] ++ wordBytes (BitVec.ofNat 16 tk.leaseMs))) :=
  (if_neg hlease.ne').trans (if_pos hroom)

theorem extendLease_spent (hlease : 0 < tk.leaseMs) (hspent : 15 ≤ tk.extensions) :
    extendLease k tk s = (s, .bare .denied) :=
  (if_neg hlease.ne').trans (if_neg (Nat.not_lt.mpr hspent))

end Extend

/-- Settles O16: past the checks of R79 EXTEND is `extendLease`, whose rows are those of R86. -/
theorem extendMovesTheDeadline : Obligations.ExtendMovesTheDeadline := by
  intro s h n tk hr hlive hown
  have htake : takeExtend h n (passedOn (.extend h n) h s) =
      extendLease (slotOf n) tk (passedOn (.extend h n) h s) :=
    withTicket_own _ hlive hown
  refine ⟨fun hlease => ?_, fun hlease hroom => ?_, fun hlease hspent => ?_⟩
  · exact onlyAnswers_of_take hr (windowBytes_extend h n) (exec_extend h n s)
      (htake.trans (extendLease_noLease _ _ hlease))
  · obtain ⟨t, ht, hframe, hrestarted, hanswers⟩ :=
      exec_request_answers hr (windowBytes_extend h n) (exec_extend h n s)
        (htake.trans (extendLease_below _ _ hlease hroom)) rfl rfl rfl
    have hslot (k : SlotId) :
        t.slot k =
          (s.setSlot (slotOf n) { s.slot (slotOf n) with ticket := some (extendTicket s.now tk) }).slot k := by
      rw [hframe]
      rfl
    refine ⟨t, ht, ?_, (hslot _).trans (State.setSlot_slot_self ..),
      fun k hk => (hslot k).trans (State.setSlot_slot_ne s _ _ k hk.symm), hrestarted, hanswers⟩
    rw [hframe]
    rfl
  · exact onlyAnswers_of_take hr (windowBytes_extend h n) (exec_extend h n s)
      (htake.trans (extendLease_spent _ _ hlease hspent))

end Sys2Proof.Proofs
end

section
/-! PROOFS. DONE and DEFER against an ARMED source (R80 to R84): first, whatever the source takes back, what the freed
slot and the level check after it leave. -/

namespace Sys2Proof.Proofs

set_option Elab.async false

open Sys2Proof.Machine Sys2Proof.Stated

/-! ## The work of an end, in the words of the statements -/

theorem consumeWork_eq_consumed (h : HostId) (r : Source) : consumeWork h r = consumed h r := by
  unfold consumeWork consumed
  cases r.config.mode with
  | one => rfl
  | each => cases r.markerOf h <;> rfl

theorem returnWork_eq_returned (tk : Ticket) (r : Source) : returnWork tk r = returned tk r := rfl

/-! ## The freed slot -/

theorem freeSlot_slot_ne (s : State) {k j : SlotId} (hj : j ≠ k) : (freeSlot k s).slot j = s.slot j :=
  (freeSlot_slot s k j).trans (if_neg hj.symm)

/-- With slot `k` freed, the live tickets of a source are those in the other slots. -/
theorem any_liveTickets_freeSlot (s : State) (k : SlotId) (i : SourceId) :
    ((freeSlot k s).liveTickets.any fun u => u.source == i) = otherLive s k i := by
  rw [State.liveTickets, otherLive, List.any_filterMap]
  refine List.any_congr rfl fun j => ?_
  by_cases hj : j = k
  · simp [hj]
  · rw [freeSlot_slot_ne s hj]
    cases (s.slot j).ticket <;> simp [hj]

/-! ## An end against an ARMED source -/

/-- Slot `k` is freed, source `i` gets record `r` and runs its level check (R80, R82, R84). -/
def endedWith (k : SlotId) (i : SourceId) (r : Source) (s : State) : State :=
  levelCheck i ((freeSlot k s).setSource i r)

theorem endDone_of_armed {k : SlotId} {tk : Ticket} {s : State} (harmed : (s.source tk.source).state = .armed) :
    endDone k tk s = endedWith k tk.source (consumed tk.host (s.source tk.source)) s := by
  rw [← consumeWork_eq_consumed]
  exact if_pos harmed

theorem endDefer_of_armed {k : SlotId} {tk : Ticket} {s : State} (harmed : (s.source tk.source).state = .armed) :
    endDefer k tk s = endedWith k tk.source (returned tk (s.source tk.source)) s :=
  if_pos harmed

section EndedWith

variable (s : State) (k : SlotId) (i : SourceId) (r : Source)

theorem endedWith_frame :
    endedWith k i r s =
      { s with sources := (endedWith k i r s).sources, slots := (endedWith k i r s).slots } := by
  unfold endedWith
  rw [levelCheck_frame]
  rfl

theorem endedWith_ports : (endedWith k i r s).ports = s.ports := by rw [endedWith_frame]

theorem endedWith_edit : (endedWith k i r s).edit = s.edit := by rw [endedWith_frame]

theorem endedWith_now : (endedWith k i r s).now = s.now := by
  rw [endedWith_frame]
  rfl

theorem endedWith_slot_self : (endedWith k i r s).slot k = { s.slot k with ticket := none } := by
  simp [endedWith]

theorem endedWith_slot_ne {j : SlotId} (hj : j ≠ k) : (endedWith k i r s).slot j = s.slot j := by
  simp [endedWith, hj.symm]

/-- The level check reads the lines and the attached hosts, which the end leaves, and the freed slot's source. -/
theorem endedWith_source_self : (endedWith k i r s).source i = checked s (otherLive s k i) i r := by
  rw [endedWith, levelCheck_source_self, State.setSource_source_self, State.setSource_liveTickets,
    any_liveTickets_freeSlot]
  rfl

theorem endedWith_source_ne {j : SourceId} (hj : j ≠ i) : (endedWith k i r s).source j = s.source j := by
  rw [endedWith, levelCheck_other _ hj.symm, setSource_other _ _ hj.symm, freeSlot_source]

end EndedWith

/-- A request of two operand bytes on a ready port whose block ends the ticket in slot `k` against an ARMED source:
what the end leaves, and the answer. -/
theorem exec_request_ends {c : Instr} {h : HostId} {s : State} {a : Answer} {take : State → State × Answer}
    {k : SlotId} {i : SourceId} {r : Source} (hr : Ready s h) (hn : windowBytes c = 2 + 3)
    (hexec : exec c s = .next (request h 2 (fun x => answerRequest h (take x)) s))
    (htake : take (passedOn c h s) = (recomputeAtn (endedWith k i r (passedOn c h s)), a)) :
    ∃ t, exec c s = .next t ∧
      t = { s with sources := t.sources, slots := t.slots, atn := t.atn, ports := t.ports, edit := t.edit } ∧
      t.slot k = { s.slot k with ticket := none } ∧ (∀ j, j ≠ k → t.slot j = s.slot j) ∧
      (∀ j, j ≠ i → t.source j = s.source j) ∧ t.source i = checked s (otherLive s k i) i r ∧ AtnShown t ∧
      Restarted h s t ∧ Answers c h a s t := by
  obtain ⟨t, ht, hframe, hatn, hrestarted, hanswers⟩ :=
    exec_request_recomputes_atn hr hn hexec htake (endedWith_ports ..) (endedWith_edit ..) (endedWith_now ..)
  have hslot (j : SlotId) : t.slot j = (endedWith k i r (passedOn c h s)).slot j := by
    rw [hframe]
    rfl
  have hsource (j : SourceId) : t.source j = (endedWith k i r (passedOn c h s)).source j := by
    rw [hframe]
    rfl
  refine ⟨t, ht, ?_, (hslot k).trans (endedWith_slot_self ..),
    fun j hj => (hslot j).trans (endedWith_slot_ne _ _ _ _ hj),
    fun j hj => (hsource j).trans (endedWith_source_ne _ _ _ _ hj), (hsource i).trans (endedWith_source_self ..), hatn,
    hrestarted, hanswers⟩
  rw [hframe, endedWith_frame]
  rfl

/-! ## DONE and DEFER -/

section OwnTicket

variable {h : HostId} {n : Word} {s : State} {tk : Ticket} (hlive : s.findLive n = some tk) (hown : tk.host = h)
  (harmed : (s.source tk.source).state = .armed)
include hlive hown harmed

theorem takeDone_of_armed :
    takeDone h n s =
      (recomputeAtn (endedWith (slotOf n) tk.source (consumed h (s.source tk.source)) s),
        .okWith (wordBytes tk.number ++ [0])) := by
  rw [takeDone, withTicket_own _ hlive hown, endDone_of_armed harmed, hown, dispositionOf, if_pos harmed]
  rfl

theorem takeDefer_of_armed :
    takeDefer h n s =
      (recomputeAtn (endedWith (slotOf n) tk.source (returned tk (s.source tk.source)) s),
        .okWith (wordBytes tk.number ++ [1])) := by
  rw [takeDefer, withTicket_own _ hlive hown, endDefer_of_armed harmed, dispositionOf, if_pos harmed]
  rfl

end OwnTicket

/-- Settles O12: the end of the ticket with the work consumed. -/
theorem doneConsumesTheWork : Obligations.DoneConsumesTheWork := by
  intro s h n tk hr hlive hown harmed
  exact exec_request_ends hr (windowBytes_done h n) (exec_done h n s)
    (takeDone_of_armed (s := passedOn (.done h n) h s) hlive hown harmed)

/-- Settles O13: the end of the ticket with the work returned. -/
theorem deferReturnsTheWork : Obligations.DeferReturnsTheWork := by
  intro s h n tk hr hlive hown harmed
  exact exec_request_ends hr (windowBytes_defer h n) (exec_defer h n s)
    (takeDefer_of_armed (s := passedOn (.defer h n) h s) hlive hown harmed)

end Sys2Proof.Proofs
end

section
/-! PROOFS. The lease expiry that abandons its source (R8, R88, R90, R91): the attempt counted, the limit reached, and
the store of the record with its notice to S63 (R20, R142, R143) in the words of the statements. -/

namespace Sys2Proof.Proofs

set_option Elab.async false

open Sys2Proof.Machine Sys2Proof.Stated Sys2Proof.Safety

/-! ## The attempt of an expiry -/

/-- R4: within its range a counter is raised to at most 7. -/
theorem raiseAttempts_eq_min {n : Nat} (hn : n ≤ 7) : raiseAttempts n = min 7 (n + 1) := by
  unfold raiseAttempts Config.attemptsCap
  split <;> omega

/-- R83: returned work changes the pending count, the queue and the markers alone. -/
theorem returned_frame (tk : Ticket) (r : Source) :
    returned tk r =
      { r with
        pendingCount := (returned tk r).pendingCount
        argQueue := (returned tk r).argQueue
        marker := (returned tk r).marker } := by
  unfold returned
  split
  · split <;> rfl
  · rfl

@[simp] theorem returned_config (tk : Ticket) (r : Source) : (returned tk r).config = r.config := by
  rw [returned_frame]

@[simp] theorem returned_attempts (tk : Ticket) (r : Source) : (returned tk r).attempts = r.attempts := by
  rw [returned_frame]

@[simp] theorem returned_attemptsPerHost (tk : Ticket) (r : Source) :
    (returned tk r).attemptsPerHost = r.attemptsPerHost := by
  rw [returned_frame]

@[simp] theorem returned_attemptsOf (tk : Ticket) (r : Source) (h : HostId) :
    (returned tk r).attemptsOf h = r.attemptsOf h := by
  simp only [Source.attemptsOf, returned_attemptsPerHost]

@[simp] theorem attempted_config (h : HostId) (r : Source) : (attempted h r).config = r.config := by
  unfold attempted
  split
  · rfl
  · split <;> rfl

/-- R88, step 2: with the counters in their range, an expiry that counts raises the count of the work of `h`. -/
theorem countAttempt_eq_attempted {h : HostId} {r : Source} (hone : r.attempts ≤ 7) (heach : r.attemptsOf h ≤ 7)
    (hcounts : countsAttempt h r = true) : countAttempt h r = attempted h r := by
  unfold countsAttempt at hcounts
  unfold countAttempt attempted
  cases hmode : r.config.mode with
  | one => simp only [raiseAttempts_eq_min hone]
  | each =>
    simp only [hmode] at hcounts
    simp only [raiseAttempts_eq_min heach, if_pos hcounts]
    rfl

/-- R90: the limit is reached where the expiry counts and the model's test finds the count at retry_limit. -/
theorem reachesLimit_iff {i : SourceId} {h : HostId} {r : Source} :
    reachesLimit i h r = true ↔ countsAttempt h r = true ∧ abandons i h r = true := by
  unfold reachesLimit countsAttempt abandons countOf attemptCount noticeSource
  cases r.config.mode with
  | one => simp
  | each => simp; tauto

theorem countsAttempt_attempted (h : HostId) (r : Source) : countsAttempt h (attempted h r) = countsAttempt h r := by
  simp only [countsAttempt, attempted_config]

theorem faultRuntime_eq_emptied (r : Source) : faultRuntime r = { emptied r with state := .faulted } := rfl

theorem abandonedHost_eq (h : HostId) (r : Source) :
    abandonedHost h r = if r.config.mode = .each then some h else none := by
  unfold abandonedHost
  cases r.config.mode <;> rfl

/-- The work that comes back with the expiry does not touch the count (R83, R88). -/
theorem countOf_attempted_returned (h : HostId) (tk : Ticket) (r : Source) :
    countOf h (attempted h (returned tk r)) = countOf h (attempted h r) := by
  unfold countOf
  simp only [attempted_config, returned_config]
  cases hmode : r.config.mode with
  | one => simp [attempted, hmode]
  | each => by_cases hmember : hasHost r.config.hostSet h = true <;> simp [attempted, hmode, hmember, Source.attemptsOf]

/-! ## The store of a record -/

theorem store_eq_stored (q : FaultQueue) (now : Millis) (cause : FaultCause) :
    q.store now cause = stored q now cause := by
  unfold FaultQueue.store stored advanceSeq Config.faultCap
  by_cases hfull : 16 ≤ q.records.length
  · simp [hfull, Nat.not_lt.mpr hfull]
  · simp [hfull, Nat.lt_of_not_le hfull]

theorem countOccurrence_fst_eq_counted (covered : Nat) (r : Source) :
    (countOccurrence covered r).1 = counted covered r := by
  rcases countOccurrence_cases covered r with ⟨hroom, heq⟩ | ⟨hfull, hmark, heq⟩ | ⟨hfull, -, heq⟩
  · rw [heq, counted, if_pos hroom]
  · rw [heq, counted, if_neg hfull, ← hmark]
  · rw [heq, counted, if_neg hfull]

/-- R20: what a notice makes of S63. -/
theorem takeNotice_source_self (s : State) : (takeNotice s).source 63 = noticed s (s.source 63) := by
  have hcases := takeNotice_cases s
  unfold noticeSource at hcases
  unfold noticed
  rcases hcases with ⟨hstate, heq⟩ | ⟨hstate, hmode, heq⟩ | ⟨hstate, hmode, heq⟩
  · rw [heq, if_neg hstate]
  · rw [heq, if_pos hstate, hmode, State.setSource_source_self, countOccurrence_fst_eq_counted]
  · rw [heq, if_pos hstate, hmode, State.setSource_source_self, markHosts_eq_markedBy]

/-- A notice reads what a live ticket of S63 covers, and which hosts are attached. -/
theorem noticed_congr {s t : State} (hcovered : s.coveredBy 63 = t.coveredBy 63)
    (hattached : ∀ x, s.attached x = t.attached x) (r : Source) : noticed s r = noticed t r := by
  simp only [noticed, markedBy, hcovered, hattached]

theorem storeFault_source_self (cause : FaultCause) (s : State) :
    (storeFault cause s).source 63 = noticed s (s.source 63) :=
  takeNotice_source_self _

/-! ## The ticket of another source -/

/-- The freeing of a slot leaves the live ticket of every source but its own. -/
theorem sourceTicket_freeSlot {s : State} {k : SlotId} {tk : Ticket} {i : SourceId} (hk : (s.slot k).ticket = some tk)
    (hi : tk.source ≠ i) : (freeSlot k s).sourceTicket i = s.sourceTicket i := by
  simp only [State.sourceTicket, State.liveTickets, ← List.head?_filter, List.filter_filterMap]
  congr 1
  refine List.filterMap_congr fun j _ => ?_
  by_cases hj : j = k
  · subst hj
    simp [hk, Option.filter, hi]
  · rw [freeSlot_slot_ne s hj]

theorem coveredBy_freeSlot {s : State} {k : SlotId} {tk : Ticket} {i : SourceId} (hk : (s.slot k).ticket = some tk)
    (hi : tk.source ≠ i) : (freeSlot k s).coveredBy i = s.coveredBy i := by
  simp only [State.coveredBy, sourceTicket_freeSlot hk hi]

/-! ## The abandonment -/

/-- R91: what the record of the abandonment by the expiry of `tk` reports, `r` being the source's record before. -/
abbrev abandonment (tk : Ticket) (r : Source) : FaultCause :=
  .abandoned tk.source (if r.config.mode = .each then some tk.host else none) tk.number
    (countOf tk.host (attempted tk.host r))

/-- R8: the source's record, `r` before the expiry of `tk`, after the abandonment. -/
abbrev abandoned (tk : Ticket) (r : Source) : Source :=
  { emptied (attempted tk.host (returned tk r)) with state := .faulted }

/-- R88, R90, R91: an expiry that reaches the limit counts its attempt, empties the source and stores the record. -/
theorem expireArmed_of_limit {tk : Ticket} {s : State} (hone : (s.source tk.source).attempts ≤ 7)
    (heach : (s.source tk.source).attemptsOf tk.host ≤ 7)
    (hlimit : reachesLimit tk.source tk.host (attempted tk.host (returned tk (s.source tk.source))) = true) :
    expireArmed tk s =
      storeFault (abandonment tk (s.source tk.source))
        (s.setSource tk.source (abandoned tk (s.source tk.source))) := by
  obtain ⟨hcounts, habandons⟩ := reachesLimit_iff.mp hlimit
  rw [countsAttempt_attempted] at hcounts
  have hcounted : countAttempt tk.host (returned tk (s.source tk.source)) =
      attempted tk.host (returned tk (s.source tk.source)) :=
    countAttempt_eq_attempted (by simpa using hone) (by simpa using heach) hcounts
  have hcause : abandonment tk (s.source tk.source) =
      .abandoned tk.source (abandonedHost tk.host (attempted tk.host (returned tk (s.source tk.source)))) tk.number
        (attemptCount tk.host (attempted tk.host (returned tk (s.source tk.source)))) := by
    rw [abandonedHost_eq, attempted_config, returned_config, abandonment, ← countOf_attempted_returned]
    rfl
  simp only [expireArmed, returnWork_eq_returned, hcounts, hcounted, habandons, if_true, hcause,
    faultRuntime_eq_emptied]

/-! ## LEASE_EXPIRY -/

/-- R87: the expiry of a live ticket whose deadline is reached is taken. -/
theorem exec_leaseExpiry_of_reached {s : State} {k : SlotId} {tk : Ticket} {d : Millis}
    (hk : (s.slot k).ticket = some tk) (hdeadline : tk.deadlineMs = some d) (hreached : reachedMs s.now d = true) :
    exec (.leaseExpiry k) s = .next (recomputeAtn (endExpired k tk s)) := by
  show execLeaseExpiry k s = _
  simp only [execLeaseExpiry, expiredIn, hk, hdeadline, hreached, if_true]

theorem endExpired_of_armed {s : State} {k : SlotId} {tk : Ticket} (harmed : (s.source tk.source).state = .armed) :
    endExpired k tk s = expireArmed tk (freeSlot k s) :=
  if_pos harmed

/-- What recomputes ATN last shows R49's level at every output. -/
theorem atnShown_recomputeAtn (s : State) : AtnShown (recomputeAtn s) := fun x =>
  (recomputeAtn_atnOf s x).trans (atnLevel_congr rfl rfl rfl rfl x)

/-- Settles O18: the freed slot, the abandonment of `expireArmed_of_limit`, and its one store. -/
theorem leaseExpiryAbandonsTheSource : Obligations.LeaseExpiryAbandonsTheSource := by
  intro s k tk d hkept hk hdeadline hreached harmed hlimit
  obtain ⟨-, -, -, -, hone, heach⟩ := hkept
  have hsource63 : tk.source ≠ 63 := fun h63 => by simp [reachesLimit, h63] at hlimit
  have hended : endExpired k tk s =
      storeFault (abandonment tk (s.source tk.source))
        ((freeSlot k s).setSource tk.source (abandoned tk (s.source tk.source))) :=
    (endExpired_of_armed harmed).trans (expireArmed_of_limit (s := freeSlot k s) hone (heach tk.host) hlimit)
  have hexec := exec_leaseExpiry_of_reached hk hdeadline hreached
  rw [hended] at hexec
  refine ⟨_, hexec, ?_, ?_, fun j hj => ?_, ?_, ?_, fun j hj hj63 => ?_, ?_, atnShown_recomputeAtn _⟩
  · rw [storeFault_frame]
    rfl
  · simp
  · simp [hj.symm]
  · simp [storeFault_other _ _ hsource63.symm]
  · rw [recomputeAtn_source, storeFault_source_self, setSource_other _ _ hsource63, freeSlot_source]
    exact noticed_congr (coveredBy_freeSlot hk hsource63) (fun _ => rfl) _
  · rw [recomputeAtn_source, storeFault_other _ _ (Ne.symm hj63), setSource_other _ _ hj.symm, freeSlot_source]
  · simp [store_eq_stored]

end Sys2Proof.Proofs
end

section
/-! PROOFS. ATTACH (R112, R113) and DETACH (R115, R116): the requests that change one host record, the markers owed to
that host, and ATN. -/

namespace Sys2Proof.Proofs

set_option Elab.async false

open Sys2Proof.Machine Sys2Proof.Stated

/-! ## A request whose block changes a host record and sources -/

/-- A request on a ready port whose block gives `h` the record `r`, makes the sources those of `v`, and then recomputes
ATN: both changes stand in what the request leaves, and no other host changes. -/
theorem exec_request_changes_host {c : Instr} {h : HostId} {s v : State} {r : HostRec} {a : Answer} {n : Nat}
    {take : State → State × Answer} (hr : Ready s h) (hn : windowBytes c = n + 3)
    (hexec : exec c s = .next (request h n (fun x => answerRequest h (take x)) s))
    (htake : take (passedOn c h s) = (recomputeAtn v, a))
    (hv : v = { (passedOn c h s).setHost h r with sources := v.sources }) :
    ∃ t, exec c s = .next t ∧
      t = { s with sources := t.sources, hosts := t.hosts, atn := t.atn, ports := t.ports, edit := t.edit } ∧
      t.host h = r ∧ (∀ x, x ≠ h → t.host x = s.host x) ∧ (∀ i, t.source i = v.source i) ∧ AtnShown t ∧
      Restarted h s t ∧ Answers c h a s t := by
  obtain ⟨w, rfl⟩ : ∃ w, v = { (passedOn c h s).setHost h r with sources := w } := ⟨_, hv⟩
  obtain ⟨t, ht, hframe, hatn, hrestarted, hanswers⟩ := exec_request_recomputes_atn hr hn hexec htake rfl rfl rfl
  have hhost (x : HostId) : t.host x = (s.setHost h r).host x := by
    rw [hframe]
    rfl
  refine ⟨t, ht, ?_, (hhost h).trans (State.setHost_host_self ..),
    fun x hx => (hhost x).trans (State.setHost_host_ne s h r x hx.symm), fun i => ?_, hatn, hrestarted, hanswers⟩
  · rw [hframe]
    rfl
  · rw [hframe]
    rfl

/-! ## The level checks of an attaching host -/

/-- R113: the record `r` of source `i` after its level check for the attaching host `h` alone. -/
def checkedFor (s : State) (h : HostId) (i : SourceId) (r : Source) : Source :=
  if r.state = .armed ∧ r.config.mode = .each ∧ kindOf i = .watch ∧ levelHolds s r.config = true ∧
      hasHost r.config.hostSet h = true ∧ r.markerOf h = .clear then
    { r with marker := r.marker.set h .owed }
  else r

/-- R16 for one attached host: its CLEAR marker becomes OWED where host_set holds it, and no other marker changes. -/
theorem oweClear_of_attached {s : State} {h : HostId} (hattached : s.attached h = true) (r : Source) :
    oweClear s (fun x => x == h) r =
      if hasHost r.config.hostSet h = true ∧ r.markerOf h = .clear then r.setMarker h .owed else r := by
  split
  next howes =>
    refine source_ext rfl rfl rfl rfl rfl rfl rfl (fun x => ?_) (fun _ => rfl)
    rw [oweClear_markerOf, markerOf_setMarker]
    by_cases hx : h = x
    · subst hx
      simp [hattached, howes]
    · simp [hx, Ne.symm hx]
  next hkeeps =>
    refine source_ext rfl rfl rfl rfl rfl rfl rfl (fun x => ?_) (fun _ => rfl)
    rw [oweClear_markerOf]
    refine if_neg fun howed => hkeeps ?_
    simp only [Bool.and_eq_true, beq_iff_eq] at howed
    obtain ⟨⟨⟨hset, -⟩, rfl⟩, hclear⟩ := howed
    exact ⟨hset, hclear⟩

/-- R113: the level check for an attached host writes the checked record back. -/
theorem levelCheckFor_source_self {s : State} {h : HostId} (hattached : s.attached h = true) (i : SourceId) :
    (levelCheckFor h i s).source i = checkedFor s h i (s.source i) := by
  simp only [levelCheckFor, checkedFor, levelActive_eq_true]
  split
  next hruns =>
    obtain ⟨harmed, ⟨hwatch, hlevel⟩, heach⟩ := hruns
    rw [State.setSource_source_self, oweClear_of_attached hattached]
    simp [harmed, hwatch, hlevel, heach, Source.setMarker]
  next hidle =>
    refine (if_neg fun howes => hidle ?_).symm
    obtain ⟨harmed, heach, hwatch, hlevel, -, -⟩ := howes
    exact ⟨harmed, ⟨hwatch, hlevel⟩, heach⟩

theorem levelCheckFor_other (h : HostId) (s : State) {i j : SourceId} (hij : i ≠ j) :
    (levelCheckFor h i s).source j = s.source j := by
  unfold levelCheckFor
  dsimp only
  split
  · exact setSource_other s _ hij
  · rfl

/-- A level check reads, besides the record, the accepted levels alone, which no level check changes. -/
theorem checkedFor_levelCheckFor (s : State) (h : HostId) (i j : SourceId) (r : Source) :
    checkedFor (levelCheckFor h j s) h i r = checkedFor s h i r := by
  rw [levelCheckFor_frame]
  rfl

theorem foldl_levelCheckFor_frame (h : HostId) (l : List SourceId) (s : State) :
    l.foldl (fun x i => levelCheckFor h i x) s =
      { s with sources := (l.foldl (fun x i => levelCheckFor h i x) s).sources } := by
  induction l generalizing s with
  | nil => rfl
  | cons j rest ih => rw [List.foldl_cons, ih, levelCheckFor_frame]

/-- A run of level checks over different sources checks each of them as it stood at first. -/
theorem foldl_levelCheckFor_source {s : State} {h : HostId} {l : List SourceId} (hattached : s.attached h = true)
    (hl : l.Nodup) (i : SourceId) :
    (l.foldl (fun x j => levelCheckFor h j x) s).source i =
      if i ∈ l then checkedFor s h i (s.source i) else s.source i := by
  induction l generalizing s with
  | nil => rfl
  | cons j rest ih =>
    obtain ⟨hj, hrest⟩ := List.nodup_cons.mp hl
    rw [List.foldl_cons, ih (by simpa using hattached) hrest, checkedFor_levelCheckFor]
    by_cases hij : j = i
    · subst hij
      simp [hj, levelCheckFor_source_self hattached]
    · simp [levelCheckFor_other h s hij, Ne.symm hij]

/-! ## ATTACH -/

/-- R112 and R113: `h`'s record is changed, then every source is checked for `h`. -/
def attachedWith (h : HostId) (mask : LaneMask) (s : State) : State :=
  allSources.foldl (fun x i => levelCheckFor h i x) (s.setHost h { s.host h with attached := true, laneMask := mask })

theorem exec_attach (h : HostId) (mask : LaneMask) (s : State) :
    exec (.attach h mask) s = .next (request h 1 (fun x => answerRequest h (takeAttach h mask x)) s) := rfl

theorem windowBytes_attach (h : HostId) (mask : LaneMask) : windowBytes (.attach h mask) = 1 + 3 := rfl

theorem takeAttach_attached {h : HostId} {s : State} (mask : LaneMask) (hattached : s.attached h = true) :
    takeAttach h mask s = (s, .bare .wrongState) :=
  if_pos hattached

theorem takeAttach_notAttached {h : HostId} {s : State} (mask : LaneMask) (hattached : s.attached h = false) :
    takeAttach h mask s = (recomputeAtn (attachedWith h mask s), .okWith [mask]) := by
  rw [takeAttach, hattached]
  rfl

/-- The level checks of an attaching host run on the record that says it is attached, and read the lines, which
attaching leaves. -/
theorem attachedWith_source (h : HostId) (mask : LaneMask) (s : State) (i : SourceId) :
    (attachedWith h mask s).source i = checkedFor s h i (s.source i) :=
  (foldl_levelCheckFor_source (State.setHost_attached_self ..) (List.nodup_finRange 64) i).trans
    (if_pos (List.mem_finRange i))

/-- Settles O3: attachment decides whether the host table refuses, or admits the host and checks the levels for it. -/
theorem attachAdmitsTheHost : Obligations.AttachAdmitsTheHost := by
  refine ⟨fun s h mask hr hattached => ?_, fun s h mask hr hattached => ?_⟩
  · obtain ⟨t, ht, hframe, hhost, hothers, hsources, hatn, hrestarted, hanswers⟩ :=
      exec_request_changes_host hr (windowBytes_attach h mask) (exec_attach h mask s)
        (takeAttach_notAttached (s := passedOn (.attach h mask) h s) mask hattached)
        (foldl_levelCheckFor_frame h allSources _)
    exact ⟨t, ht, hframe, hhost, hothers, fun i => (hsources i).trans (attachedWith_source h mask _ i), hatn,
      hrestarted, hanswers⟩
  · exact onlyAnswers_of_take hr (windowBytes_attach h mask) (exec_attach h mask s) (takeAttach_attached mask hattached)

/-! ## DETACH -/

/-- R115: a host holds no ticket when no slot's ticket names it. -/
theorem ticketsOf_eq_nil {s : State} {h : HostId} :
    s.ticketsOf h = [] ↔ ∀ k : SlotId, ∀ u ∈ (s.slot k).ticket, u.host ≠ h := by
  simp only [State.ticketsOf, List.filter_eq_nil_iff, beq_iff_eq, mem_liveTickets]
  exact ⟨fun hnone k u hu => hnone u ⟨k, hu⟩, fun hnone u ⟨k, hu⟩ => hnone k u hu⟩

theorem exec_detach (h : HostId) (s : State) :
    exec (.detach h) s = .next (request h 0 (fun x => answerRequest h (takeDetach h x)) s) := rfl

theorem windowBytes_detach (h : HostId) : windowBytes (.detach h) = 0 + 3 := rfl

theorem takeDetach_notAttached {h : HostId} {s : State} (hattached : s.attached h = false) :
    takeDetach h s = (s, .bare .notAttached) :=
  if_pos hattached

theorem takeDetach_holdsTicket {h : HostId} {s : State} (hattached : s.attached h = true) (hheld : s.ticketsOf h ≠ []) :
    takeDetach h s = (s, .bare .busy) := by
  simp [takeDetach, hattached, hheld]

theorem takeDetach_holdsSession {h : HostId} {s : State} (hattached : s.attached h = true)
    (hsession : (s.host h).editState = .session) : takeDetach h s = (s, .bare .busy) := by
  simp [takeDetach, hattached, hsession]

theorem takeDetach_free {h : HostId} {s : State} (hattached : s.attached h = true) (hheld : s.ticketsOf h = [])
    (hsession : (s.host h).editState ≠ .session) :
    takeDetach h s =
      (recomputeAtn (clearOwedTo h (s.setHost h { s.host h with attached := false, laneMask := 0 })), .okWith []) := by
  simp [takeDetach, hattached, hheld, hsession]

/-- R116: the OWED marker of `h` in an EACH-mode source goes, and nothing else of any source. -/
theorem clearOwedTo_source (h : HostId) (s : State) (i : SourceId) :
    (clearOwedTo h s).source i =
      if (s.source i).config.mode = .each ∧ (s.source i).markerOf h = .owed then (s.source i).setMarker h .clear
      else s.source i :=
  State.mapSources_source s _ i

/-- R49: the ATN of a host that is not attached is deasserted. -/
theorem atnLevel_of_not_attached {s : State} {h : HostId} (hattached : s.attached h = false) : atnLevel s h = false := by
  simp [atnLevel, hattached]

/-- Settles O4: the three refusals in the host table's order, and the host that none of them meets. -/
theorem detachDismissesTheHost : Obligations.DetachDismissesTheHost := by
  refine ⟨fun s h hr hattached hfree hsession => ?_, fun s h hr => ⟨fun hattached => ?_, fun hattached hheld => ?_,
    fun hattached hsession => ?_⟩⟩
  · obtain ⟨t, ht, hframe, hhost, hothers, hsources, hatn, hrestarted, hanswers⟩ :=
      exec_request_changes_host hr (windowBytes_detach h) (exec_detach h s)
        (takeDetach_free (s := passedOn (.detach h) h s) hattached (ticketsOf_eq_nil.mpr hfree) hsession)
        (clearOwedTo_frame _ h)
    have hdetached : t.attached h = false := congrArg HostRec.attached hhost
    exact ⟨t, ht, hframe, hhost, hothers, fun i => (hsources i).trans (clearOwedTo_source h _ i), hatn,
      (hatn h).trans (atnLevel_of_not_attached hdetached), hrestarted, hanswers⟩
  · exact onlyAnswers_of_take hr (windowBytes_detach h) (exec_detach h s) (takeDetach_notAttached hattached)
  · have htickets : s.ticketsOf h ≠ [] := fun hnil => by
      obtain ⟨k, u, hu, hown⟩ := hheld
      exact ticketsOf_eq_nil.mp hnil k u hu hown
    exact onlyAnswers_of_take hr (windowBytes_detach h) (exec_detach h s) (takeDetach_holdsTicket hattached htickets)
  · exact onlyAnswers_of_take hr (windowBytes_detach h) (exec_detach h s) (takeDetach_holdsSession hattached hsession)

end Sys2Proof.Proofs
end

section
/-! PROOFS. Staged entries in bytes (R125, R129, R160, R161): the target that a kind byte and a number byte name, the
source configuration block both ways, the record of a valid entry, and the place of a target in the staged list. -/

namespace Sys2Proof.Proofs

open Sys2Proof.Machine Sys2Proof.Stated Sys2Proof.Safety

/-! ## Targets -/

theorem target_bytes (e : StagedEntry) : e.target.bytes = [entryKind e, entryNumber e] := by
  cases e <;> rfl

/-- R125: of the target kind that its byte names, `parseTarget` admits the numbers below that kind's count. -/
theorem parseTarget_eq_none_iff {kind number : Byte} :
    parseTarget kind number = none ↔ targetCount kind ≤ number.toNat := by
  unfold parseTarget targetCount
  split_ifs <;> simp <;> omega

theorem toNat_byteOf {n : Nat} (hn : n < 256) : (byteOf n).toNat = n := by
  rw [byteOf, BitVec.toNat_ofNat, Nat.mod_eq_of_lt hn]

/-- A target is named by its own bytes, and by no others. -/
theorem parseTarget_eq_some_iff {kind number : Byte} {t : Target} :
    parseTarget kind number = some t ↔ t.bytes = [kind, number] := by
  constructor
  · intro h
    unfold parseTarget at h
    split_ifs at h with hkind
    all_goals
      cases h
      simp [Target.bytes, byteOf, *]
  · intro h
    cases t with
    | source n =>
      cases h
      simp [parseTarget, toNat_byteOf (n := n.val) (by omega)]
    | lane k =>
      cases h
      simp [parseTarget, toNat_byteOf (n := k.val) (by omega)]
    | line i =>
      cases h
      simp [parseTarget, toNat_byteOf (n := i.val) (by omega)]

theorem parseTarget_of_entry (e : StagedEntry) : parseTarget (entryKind e) (entryNumber e) = some e.target :=
  parseTarget_eq_some_iff.mpr (target_bytes e)

/-- An entry is for the target that two bytes name when its own two bytes are these. -/
theorem target_eq_iff {kind number : Byte} {t : Target} (ht : parseTarget kind number = some t) (e : StagedEntry) :
    e.target = t ↔ entryKind e = kind ∧ entryNumber e = number := by
  constructor
  · rintro rfl
    simpa [target_bytes] using parseTarget_eq_some_iff.mp ht
  · rintro ⟨rfl, rfl⟩
    exact Option.some.inj ((parseTarget_of_entry e).symm.trans ht)

/-! ## The place of a target in the list -/

/-- An entry is for the target that two bytes name, as `ListedAt` tests it. -/
theorem decide_target_eq {kind number : Byte} {t : Target} (ht : parseTarget kind number = some t) (e : StagedEntry) :
    decide (e.target = t) = (entryKind e == kind && entryNumber e == number) := by
  rw [Bool.eq_iff_iff]
  simpa using target_eq_iff ht e

/-- R125: the position of a target is the place of the first entry for it. -/
theorem positionOf_eq_findIdx? (t : Target) (l : List StagedEntry) :
    positionOf t l = l.findIdx? fun e => decide (e.target = t) := by
  induction l with
  | nil => rfl
  | cons e rest ih => simp [positionOf, List.findIdx?_cons, ih]

theorem positionOf_of_listedAt {l : List StagedEntry} {kind number : Byte} {t : Target} {p : Nat}
    (ht : parseTarget kind number = some t) (hp : ListedAt l kind number p) : positionOf t l = some p := by
  obtain ⟨hhere, hbefore⟩ := hp
  rw [positionOf_eq_findIdx?, funext (decide_target_eq ht), List.findIdx?_eq_some_iff_getElem]
  obtain ⟨e, he, htest⟩ := (Option.any_eq_true _ _).mp hhere
  obtain ⟨hlt, rfl⟩ := List.getElem?_eq_some_iff.mp he
  refine ⟨hlt, htest, fun q hq => ?_⟩
  have hno := hbefore q hq
  rw [List.getElem?_eq_getElem (hq.trans hlt)] at hno
  simpa using hno

theorem positionOf_of_notListed {l : List StagedEntry} {kind number : Byte} {t : Target}
    (ht : parseTarget kind number = some t) (hl : NotListed l kind number) : positionOf t l = none :=
  positionOf_eq_none.mpr fun e he heq => hl e he ((target_eq_iff ht e).mp heq)

/-- A target that the list holds is in range (R125). -/
theorem exists_target_of_listedAt {l : List StagedEntry} {kind number : Byte} {p : Nat}
    (hp : ListedAt l kind number p) : ∃ t, parseTarget kind number = some t := by
  obtain ⟨hhere, -⟩ := hp
  obtain ⟨e, -, htest⟩ := (Option.any_eq_true _ _).mp hhere
  obtain ⟨rfl, rfl⟩ : entryKind e = kind ∧ entryNumber e = number := by simpa using htest
  exact ⟨_, parseTarget_of_entry e⟩

/-! ## The source configuration block -/

theorem flagBits_eq (echo enabled : Bool) (m : Mode) :
    0#5 ++ BitVec.ofBool echo ++ m.code ++ BitVec.ofBool enabled =
      BitVec.ofNat 8 ((if enabled then 1 else 0) + (if m = .each then 2 else 0) + (if echo then 4 else 0)) := by
  cases m <;> revert echo enabled <;> decide

theorem laneRankByte_eq (k : LaneId) (rank : Fin 16) :
    0#1 ++ BitVec.ofNat 3 k.val ++ BitVec.ofNat 4 rank.val = BitVec.ofNat 8 (k.val * 16 + rank.val) := by
  revert k rank
  decide

theorem retryTriggerByte_eq (n : Fin 8) (t : Trigger) :
    0#1 ++ BitVec.ofNat 3 n.val ++ 0#1 ++ t.code = BitVec.ofNat 8 (n.val * 16 + triggerCode t) := by
  cases t <;> revert n <;> decide

theorem hostSetsByte_eq (posters hosts : HostSet) :
    posters ++ hosts = BitVec.ofNat 8 (posters.toNat * 16 + hosts.toNat) := by
  apply BitVec.eq_of_toNat_eq
  rw [toNat_append_eq_add, BitVec.toNat_ofNat]
  omega

theorem wordBytes_eq_twoBytes (n : Nat) : wordBytes (BitVec.ofNat 16 n) = twoBytes n := by
  simp only [wordBytes, twoBytes, List.cons.injEq, and_true]
  constructor
  · apply BitVec.eq_of_toNat_eq
    simp only [BitVec.extractLsb'_toNat, Nat.shiftRight_eq_div_pow, BitVec.toNat_ofNat]
    omega
  · apply BitVec.eq_of_toNat_eq
    simp only [BitVec.extractLsb'_toNat, Nat.shiftRight_eq_div_pow, BitVec.toNat_ofNat]
    omega

/-- R161: the block bit by bit is the block by its weights. -/
theorem sourceBlock_eq_configBytes (c : SourceConfig) : sourceBlock c = configBytes c := by
  have hhandle : wordBytes c.handle = twoBytes c.handle.toNat := by
    rw [← wordBytes_eq_twoBytes, BitVec.ofNat_toNat, BitVec.setWidth_eq]
  simp only [sourceBlock, configBytes, flagBits_eq, laneRankByte_eq, retryTriggerByte_eq, hostSetsByte_eq, hhandle,
    wordOfNat, wordBytes_eq_twoBytes, byteOf]

/-- R160: a word's two bytes, put together again. -/
theorem wordOf_extractLsb' (w : Word) : wordOf (w.extractLsb' 8 8) (w.extractLsb' 0 8) = w := by
  rw [wordOf, BitVec.extractLsb'_append_extractLsb'_eq_extractLsb' (by decide)]
  simp

/-- Byte 0 of the block read back: its five upper bits are 0, the others are enabled, mode and echo. -/
theorem flagBits_parse (echo enabled : Bool) (m : Mode) :
    let b := 0#5 ++ BitVec.ofBool echo ++ m.code ++ BitVec.ofBool enabled
    b.extractLsb' 3 5 = 0 ∧ b.getLsbD 0 = enabled ∧ (if b.getLsbD 1 then Mode.each else Mode.one) = m ∧
      b.getLsbD 2 = echo := by
  cases m <;> revert echo enabled <;> decide

/-- Byte 1 read back: its top bit is 0. -/
theorem laneRankByte_parse (k : LaneId) (rank : Fin 16) :
    let b := 0#1 ++ BitVec.ofNat 3 k.val ++ BitVec.ofNat 4 rank.val
    b.getLsbD 7 = false ∧ (b.extractLsb' 4 3).toFin = k ∧ (b.extractLsb' 0 4).toFin = rank := by
  revert k rank
  decide

/-- Byte 7 read back: its bits 7 and 3 are 0. -/
theorem retryTriggerByte_parse (n : Fin 8) (t : Trigger) :
    let b := 0#1 ++ BitVec.ofNat 3 n.val ++ 0#1 ++ t.code
    b.getLsbD 7 = false ∧ b.getLsbD 3 = false ∧ (b.extractLsb' 4 3).toFin = n ∧
      triggerOf (b.extractLsb' 0 3) = some t := by
  cases t <;> revert n <;> decide

/-- R161: a block whose lease fits its two bytes is read back as the configuration it carries. -/
theorem parseSourceBlock_sourceBlock {c : SourceConfig} (hlease : c.leaseMs < 65536) :
    parseSourceBlock (sourceBlock c) = some c := by
  obtain ⟨hzero, henabled, hmode, hecho⟩ := flagBits_parse c.echo c.enabled c.mode
  obtain ⟨hlane7, hlane, hrank⟩ := laneRankByte_parse c.lane c.rank
  obtain ⟨hretry7, hretry3, hretry, htrigger⟩ := retryTriggerByte_parse c.retryLimit c.trigger
  have hhosts : (c.posters ++ c.hostSet).extractLsb' 0 4 = c.hostSet := BitVec.extractLsb'_append_eq_right
  have hposters : (c.posters ++ c.hostSet).extractLsb' 4 4 = c.posters := BitVec.extractLsb'_append_eq_left
  have hms : (BitVec.ofNat 16 c.leaseMs).toNat = c.leaseMs := by
    rw [BitVec.toNat_ofNat, Nat.mod_eq_of_lt hlease]
  have hline : (byteOf c.line.val).toNat = c.line.val := toNat_byteOf (by omega)
  show (if _ ∧ _ ∧ _ ∧ _ then _ else none) = some c
  rw [if_pos ⟨hzero, hlane7, hretry7, hretry3⟩, htrigger]
  simp only [henabled, hmode, hecho, hlane, hrank, hretry, hhosts, hposters, wordOf_extractLsb', hms, hline,
    c.line.isLt, dif_pos]

/-! ## The record of a valid entry -/

theorem entry_bytes (e : StagedEntry) : e.bytes = entryKind e :: entryNumber e :: entryRecord e := by
  cases e with
  | source n c => exact congrArg (Target.bytes (.source n) ++ ·) (sourceBlock_eq_configBytes c)
  | lane k limit => rfl
  | line i us => rfl

/-- R129: a valid lease is at most 60000. -/
theorem leaseMs_le_of_validSource {n : SourceId} {c : SourceConfig} (hvalid : validSource n c = true) :
    c.leaseMs ≤ 60000 := by
  simp only [validSource, Bool.and_eq_true, decide_eq_true_eq] at hvalid
  obtain ⟨⟨⟨-, hlease⟩, -⟩, -⟩ := hvalid
  exact hlease

/-- R129: a valid entry's record is read back as the entry, every number of it being one that its bytes can carry. -/
theorem parseRecord_of_valid {e : StagedEntry} (he : StagedEntry.Valid e) :
    parseRecord e.target (entryRecord e) = some e := by
  cases e with
  | source n c =>
    have hvalid : validSource n c = true := he
    have hlease := leaseMs_le_of_validSource hvalid
    have hblock : parseSourceBlock (configBytes c) = some c := by
      rw [← sourceBlock_eq_configBytes, parseSourceBlock_sourceBlock (by omega)]
    simp [parseRecord, StagedEntry.target, entryRecord, hblock, hvalid]
  | lane k limit =>
    have hvalid : validCredit limit = true := he
    have hlimit : limit % 256 = limit := by
      simp only [validCredit, Bool.and_eq_true, decide_eq_true_eq] at hvalid
      omega
    simp [parseRecord, StagedEntry.target, entryRecord, hlimit, hvalid]
  | line i us =>
    have hvalid : validSettle us = true := he
    have hus : us % 65536 = us := by
      simp only [validSettle, Bool.and_eq_true, decide_eq_true_eq] at hvalid
      omega
    simp [parseRecord, StagedEntry.target, entryRecord, wordBytes, wordOf_extractLsb', hus, hvalid]

/-- R161: the operands of a valid entry have the length of its kind. -/
theorem stageLengthAllowed_entry (e : StagedEntry) :
    stageLengthAllowed (entryKind e :: entryNumber e :: entryRecord e) = true := by
  cases e <;> rfl

end Sys2Proof.Proofs
end

section
/-! PROOFS. The requests of the edit session: EDIT_OPEN (R126), EDIT_STAGE of a valid record (R129, R130), EDIT_DROP
(R131), EDIT_LIST (R132) and EDIT_CLOSE (R133). -/

namespace Sys2Proof.Proofs

open Sys2Proof.Machine Sys2Proof.Stated Sys2Proof.Safety

/-! ## The edit state of a host -/

theorem setEditState_host_self (h : HostId) (es : EditState) (s : State) :
    (setEditState h es s).host h = { s.host h with editState := es } :=
  State.setHost_host_self ..

theorem setEditState_host_ne {h x : HostId} (es : EditState) (s : State) (hx : x ≠ h) :
    (setEditState h es s).host x = s.host x :=
  State.setHost_host_ne s h _ x hx.symm

theorem setEditState_attached (h x : HostId) (es : EditState) (s : State) :
    (setEditState h es s).attached x = s.attached x := by
  rw [setEditState, State.setHost_attached]
  split
  next hx => exact congrArg s.attached hx
  next => rfl

/-! ## A request whose block changes the edit unit -/

/-- A request on a ready port whose block has made `v`, whatever `v`'s edit unit is: the answer leaves it, but for the
idle deadline of a session that `h` holds in `v` (R127). -/
theorem exec_request_changes_edit {c : Instr} {h : HostId} {s v : State} {a : Answer} {n : Nat}
    {take : State → State × Answer} (hr : Ready s h) (hn : windowBytes c = n + 3)
    (hexec : exec c s = .next (request h n (fun x => answerRequest h (take x)) s))
    (htake : take (passedOn c h s) = (v, a)) (hports : v.ports = (passedOn c h s).ports) :
    ∃ t, exec c s = .next t ∧ t = { v with ports := t.ports, edit := t.edit } ∧ Restarted h v t ∧
      Answers c h a s t := by
  have hport (x : HostId) : v.port x = (passedOn c h s).port x := congrArg (fun ports => ports[x]) hports
  refine ⟨answerRequest h (v, a), ?_, answerRequest_frame h v a,
    restarted_of_touchIdle rfl rfl (formAnswer_edit _ h a), ?_, fun x hx => ?_⟩
  · rw [hexec, request_of_ready hr hn, htake]
  · simp [answerRequest, answerFlags, hport, workingPort_answer, unread]
  · simp [answerRequest, hport, State.setPort_port_ne _ _ _ _ (Ne.symm hx), Ne.symm hx]

/-- R127 for the holder of a session without a commit in flight. -/
theorem edit_of_restarted_of_holds {h : HostId} {v t : State} (hrestarted : Restarted h v t) (hholds : Holds v h) :
    t.edit = { v.edit with idleDeadline := some (v.now + 250) } :=
  hrestarted.trans (if_pos hholds)

/-- Where no session is held, no deadline restarts. -/
theorem edit_of_restarted_of_free {h : HostId} {v t : State} (hrestarted : Restarted h v t)
    (hfree : v.edit.holder = none) : t.edit = v.edit :=
  hrestarted.trans (if_neg fun hholds => Option.some_ne_none h (hholds.1.symm.trans hfree))

/-- A request whose block gives the edit unit `e` and the host `h` the edit state `es`: both stand in what the request
leaves, and no other host record changes. -/
theorem exec_request_changes_session {c : Instr} {h : HostId} {s : State} {a : Answer} {n : Nat} {e : EditUnit}
    {es : EditState} {take : State → State × Answer} (hr : Ready s h) (hn : windowBytes c = n + 3)
    (hexec : exec c s = .next (request h n (fun x => answerRequest h (take x)) s))
    (htake : take (passedOn c h s) = (setEditState h es ((passedOn c h s).setEdit e), a)) :
    ∃ t, exec c s = .next t ∧ t = { s with hosts := t.hosts, ports := t.ports, edit := t.edit } ∧
      Restarted h (s.setEdit e) t ∧ t.host h = { s.host h with editState := es } ∧
      (∀ x, x ≠ h → t.host x = s.host x) ∧ Answers c h a s t := by
  obtain ⟨t, ht, hframe, hrestarted, hanswers⟩ := exec_request_changes_edit hr hn hexec htake rfl
  have hhost (x : HostId) : t.host x = (setEditState h es s).host x := by
    rw [hframe]
    rfl
  refine ⟨t, ht, ?_, hrestarted, (hhost h).trans (setEditState_host_self ..),
    fun x hx => (hhost x).trans (setEditState_host_ne es s hx), hanswers⟩
  rw [hframe]
  rfl

/-- A request of the holder whose block gives the staged list `l`: with the restarted deadline, that is all. -/
theorem exec_request_changes_staged {c : Instr} {h : HostId} {s : State} {a : Answer} {n : Nat} {l : List StagedEntry}
    {take : State → State × Answer} (hr : Ready s h) (hholds : Holds s h) (hn : windowBytes c = n + 3)
    (hexec : exec c s = .next (request h n (fun x => answerRequest h (take x)) s))
    (htake : take (passedOn c h s) = (setStaged l (passedOn c h s), a)) :
    ∃ t, exec c s = .next t ∧ t = { s with ports := t.ports, edit := t.edit } ∧
      t.edit = { s.edit with staged := l, idleDeadline := some (s.now + 250) } ∧ Answers c h a s t := by
  obtain ⟨t, ht, hframe, hrestarted, hanswers⟩ := exec_request_changes_edit hr hn hexec htake rfl
  refine ⟨t, ht, ?_, edit_of_restarted_of_holds hrestarted hholds, hanswers⟩
  rw [hframe]
  rfl

theorem isHolder_eq_false {s : State} {h : HostId} (hother : s.edit.holder ≠ some h) : s.isHolder h = false :=
  beq_eq_false_iff_ne.mpr hother

theorem isHolder_eq_true {s : State} {h : HostId} (hheld : s.edit.holder = some h) : s.isHolder h = true :=
  beq_iff_eq.mpr hheld

/-! ## EDIT_OPEN -/

theorem exec_editOpen (h : HostId) (s : State) :
    exec (.editOpen h) s = .next (request h 0 (fun x => answerRequest h (takeEditOpen h x)) s) := rfl

theorem windowBytes_editOpen (h : HostId) : windowBytes (.editOpen h) = 0 + 3 := rfl

theorem takeEditOpen_notAttached {h : HostId} {s : State} (hattached : s.attached h = false) :
    takeEditOpen h s = (s, .bare .notAttached) :=
  if_pos hattached

theorem takeEditOpen_holder {h : HostId} {s : State} (hattached : s.attached h = true)
    (hheld : s.edit.holder = some h) : takeEditOpen h s = (s, .bare .wrongState) := by
  simp [takeEditOpen, hattached, hheld]

theorem takeEditOpen_busy {h x : HostId} {s : State} (hattached : s.attached h = true)
    (hheld : s.edit.holder = some x) (hx : x ≠ h) : takeEditOpen h s = (s, .bare .busy) := by
  simp [takeEditOpen, hattached, hheld, hx]

theorem takeEditOpen_free {h : HostId} {s : State} (hattached : s.attached h = true) (hfree : s.edit.holder = none) :
    takeEditOpen h s =
      (setEditState h .session
        (s.setEdit { EditUnit.reset with holder := some h, idleDeadline := some (s.now + 250) }),
        .okWith [0, 250]) := by
  simp only [takeEditOpen, hattached, hfree]
  rfl

/-- Settles O29: attachment and the session's holder decide among the edit unit's four answers. -/
theorem editOpenTakesTheSession : Obligations.EditOpenTakesTheSession := by
  refine fun s h hr => ⟨fun hattached => ?_, fun hattached hheld => ?_, fun x hattached hheld hx => ?_,
    fun hattached hfree => ?_⟩
  · exact onlyAnswers_of_take hr (windowBytes_editOpen h) (exec_editOpen h s) (takeEditOpen_notAttached hattached)
  · exact onlyAnswers_of_take hr (windowBytes_editOpen h) (exec_editOpen h s) (takeEditOpen_holder hattached hheld)
  · exact onlyAnswers_of_take hr (windowBytes_editOpen h) (exec_editOpen h s) (takeEditOpen_busy hattached hheld hx)
  · obtain ⟨t, ht, hframe, hrestarted, hhost, hothers, hanswers⟩ :=
      exec_request_changes_session hr (windowBytes_editOpen h) (exec_editOpen h s)
        (takeEditOpen_free (s := passedOn (.editOpen h) h s) hattached hfree)
    exact ⟨t, ht, hframe, edit_of_restarted_of_holds hrestarted ⟨rfl, rfl⟩, hhost, hothers, hanswers⟩

/-! ## EDIT_CLOSE -/

theorem exec_editClose (h : HostId) (s : State) :
    exec (.editClose h) s = .next (request h 0 (fun x => answerRequest h (takeEditClose h x)) s) := rfl

theorem windowBytes_editClose (h : HostId) : windowBytes (.editClose h) = 0 + 3 := rfl

theorem takeEditClose_noSession {h : HostId} {s : State} (hother : s.edit.holder ≠ some h) :
    takeEditClose h s = (s, .bare .noSession) :=
  if_pos (isHolder_eq_false hother)

theorem takeEditClose_holder {h : HostId} {s : State} (hheld : s.edit.holder = some h) :
    takeEditClose h s = (endSession h s, .okWith [BitVec.ofNat 8 s.edit.staged.length]) := by
  rw [takeEditClose, isHolder_eq_true hheld]
  rfl

/-- Settles O35: the holder's request ends the session, after which no idle deadline is left to restart. -/
theorem editCloseEndsTheSession : Obligations.EditCloseEndsTheSession := by
  refine fun s h hr => ⟨fun hother => ?_, fun hheld => ?_⟩
  · exact onlyAnswers_of_take hr (windowBytes_editClose h) (exec_editClose h s) (takeEditClose_noSession hother)
  · obtain ⟨t, ht, hframe, hrestarted, hhost, hothers, hanswers⟩ :=
      exec_request_changes_session hr (windowBytes_editClose h) (exec_editClose h s)
        (takeEditClose_holder (s := passedOn (.editClose h) h s) hheld)
    exact ⟨t, ht, hframe, edit_of_restarted_of_free hrestarted rfl, hhost, hothers, hanswers⟩

/-! ## EDIT_LIST -/

theorem exec_editList (h : HostId) (b : Byte) (s : State) :
    exec (.editList h b) s = .next (request h 1 (fun x => answerRequest h (takeEditList h b x)) s) := rfl

theorem windowBytes_editList (h : HostId) (b : Byte) : windowBytes (.editList h b) = 1 + 3 := rfl

theorem takeEditList_noSession {h : HostId} {s : State} (b : Byte) (hother : s.edit.holder ≠ some h) :
    takeEditList h b s = (s, .bare .noSession) :=
  if_pos (isHolder_eq_false hother)

theorem takeEditList_badValue {h : HostId} {s : State} {b : Byte} (hheld : s.edit.holder = some h)
    (hb : 15 < b.toNat) : takeEditList h b s = (s, .bare .badValue) := by
  simp [takeEditList, isHolder_eq_true hheld, hb]

/-- R132, R163: the page of the list, in the bytes of the statement. -/
theorem takeEditList_page {h : HostId} {s : State} {b : Byte} (hheld : s.edit.holder = some h) (hb : b.toNat ≤ 15) :
    takeEditList h b s =
      (s, .okWith
        ([BitVec.ofNat 8 s.edit.staged.length, BitVec.ofNat 8 (min 4 (s.edit.staged.length - b.toNat))] ++
          (((s.edit.staged.drop b.toNat).take 4).map fun e =>
            entryKind e :: entryNumber e :: entryRecord e).flatten)) := by
  have hbytes : StagedEntry.bytes = fun e => entryKind e :: entryNumber e :: entryRecord e := funext entry_bytes
  simp only [takeEditList, isHolder_eq_true hheld, Nat.not_lt.mpr hb, if_false, hbytes, List.flatMap_def,
    List.length_take, List.length_drop, byteOf, Bool.true_eq_false]

/-- Settles O34: neither the refusals nor the page change the list. -/
theorem editListShowsTheEntries : Obligations.EditListShowsTheEntries := by
  refine fun s h b hr => ⟨fun hother => ?_, fun hheld hb => ?_, fun hheld hb => ?_⟩
  · exact onlyAnswers_of_take hr (windowBytes_editList h b) (exec_editList h b s) (takeEditList_noSession b hother)
  · exact onlyAnswers_of_take hr (windowBytes_editList h b) (exec_editList h b s) (takeEditList_badValue hheld hb)
  · exact onlyAnswers_of_take hr (windowBytes_editList h b) (exec_editList h b s)
      (takeEditList_page (s := passedOn (.editList h b) h s) hheld hb)

/-! ## EDIT_DROP -/

theorem exec_editDrop (h : HostId) (kind number : Byte) (s : State) :
    exec (.editDrop h kind number) s =
      .next (request h 2 (fun x => answerRequest h (takeEditDrop h kind number x)) s) :=
  rfl

theorem windowBytes_editDrop (h : HostId) (kind number : Byte) : windowBytes (.editDrop h kind number) = 2 + 3 := rfl

theorem takeEditDrop_noSession {h : HostId} {s : State} (kind number : Byte) (hother : s.edit.holder ≠ some h) :
    takeEditDrop h kind number s = (s, .bare .noSession) :=
  if_pos (isHolder_eq_false hother)

section Held

variable {h : HostId} {s : State} {kind number : Byte} {t : Target} (hheld : s.edit.holder = some h)

include hheld

theorem takeEditDrop_badValue (hrange : targetCount kind ≤ number.toNat) :
    takeEditDrop h kind number s = (s, .bare .badValue) := by
  simp [takeEditDrop, isHolder_eq_true hheld, parseTarget_eq_none_iff.mpr hrange]

theorem takeEditDrop_none (ht : parseTarget kind number = some t) (hl : NotListed s.edit.staged kind number) :
    takeEditDrop h kind number s = (s, .bare .none) := by
  simp [takeEditDrop, isHolder_eq_true hheld, ht, positionOf_of_notListed ht hl]

theorem takeEditDrop_listed {p : Nat} (hp : ListedAt s.edit.staged kind number p) :
    takeEditDrop h kind number s =
      (setStaged (s.edit.staged.eraseIdx p) s,
        .okWith [BitVec.ofNat 8 p, BitVec.ofNat 8 (s.edit.staged.length - 1)]) := by
  obtain ⟨t, ht⟩ := exists_target_of_listedAt hp
  simp [takeEditDrop, isHolder_eq_true hheld, ht, positionOf_of_listedAt ht hp, byteOf]

end Held

/-- Settles O33: the holder, the target's range and its place in the list decide among the four answers. -/
theorem editDropRemovesTheEntry : Obligations.EditDropRemovesTheEntry := by
  refine fun s h kind number hr => ⟨fun hother => ?_, fun hholds hrange => ?_, fun hholds hrange hl => ?_,
    fun p hholds hp => ?_⟩
  · exact onlyAnswers_of_take hr (windowBytes_editDrop h kind number) (exec_editDrop h kind number s)
      (takeEditDrop_noSession kind number hother)
  · exact onlyAnswers_of_take hr (windowBytes_editDrop h kind number) (exec_editDrop h kind number s)
      (takeEditDrop_badValue hholds.1 hrange)
  · obtain ⟨t, ht⟩ : ∃ t, parseTarget kind number = some t :=
      Option.ne_none_iff_exists'.mp fun hnone => Nat.not_le.mpr hrange (parseTarget_eq_none_iff.mp hnone)
    exact onlyAnswers_of_take hr (windowBytes_editDrop h kind number) (exec_editDrop h kind number s)
      (takeEditDrop_none hholds.1 ht hl)
  · exact exec_request_changes_staged hr hholds (windowBytes_editDrop h kind number) (exec_editDrop h kind number s)
      (takeEditDrop_listed (s := passedOn (.editDrop h kind number) h s) hholds.1 hp)

/-! ## EDIT_STAGE -/

/-- The command by which `h` stages `e`. -/
abbrev stageOf (h : HostId) (e : StagedEntry) : Instr := .editStage h (entryKind e) (entryNumber e) (entryRecord e)

theorem exec_stageOf (h : HostId) (e : StagedEntry) (s : State) :
    exec (stageOf h e) s =
      .next (request h ((entryRecord e).length + 2)
        (fun x => answerRequest h (takeEditStage h (entryKind e) (entryNumber e) (entryRecord e) x)) s) :=
  if_pos (stageLengthAllowed_entry e)

theorem windowBytes_stageOf (h : HostId) (e : StagedEntry) :
    windowBytes (stageOf h e) = ((entryRecord e).length + 2) + 3 := rfl

section Held

variable {h : HostId} {s : State} {e : StagedEntry}

/-- R129: a valid entry passes the validation, and is staged. -/
theorem takeEditStage_of_valid (hheld : s.edit.holder = some h) (he : StagedEntry.Valid e) :
    takeEditStage h (entryKind e) (entryNumber e) (entryRecord e) s = stage e s := by
  simp [takeEditStage, isHolder_eq_true hheld, parseTarget_of_entry, parseRecord_of_valid he]

theorem stage_of_listed {p : Nat} (hp : ListedAt s.edit.staged (entryKind e) (entryNumber e) p) :
    stage e s =
      (setStaged (s.edit.staged.set p e) s,
        .okWith [BitVec.ofNat 8 p, BitVec.ofNat 8 s.edit.staged.length]) := by
  simp only [stage, stageEntry, positionOf_of_listedAt (parseTarget_of_entry e) hp, byteOf]

theorem stage_of_room (hl : NotListed s.edit.staged (entryKind e) (entryNumber e))
    (hroom : s.edit.staged.length < 16) :
    stage e s =
      (setStaged (s.edit.staged ++ [e]) s,
        .okWith [BitVec.ofNat 8 s.edit.staged.length, BitVec.ofNat 8 (s.edit.staged.length + 1)]) := by
  simp only [stage, stageEntry, positionOf_of_notListed (parseTarget_of_entry e) hl, byteOf, Config.stagedCap,
    Nat.not_le.mpr hroom, if_false]

theorem stage_of_full (hl : NotListed s.edit.staged (entryKind e) (entryNumber e))
    (hfull : 16 ≤ s.edit.staged.length) : stage e s = (s, .bare .full) := by
  simp only [stage, positionOf_of_notListed (parseTarget_of_entry e) hl, Config.stagedCap, hfull, if_true]

end Held

/-- Settles O30: the entry's place in the list, or its length, decides what staging makes of the list. -/
theorem editStageBuildsTheList : Obligations.EditStageBuildsTheList := by
  intro s h e hr hholds he
  have htake := takeEditStage_of_valid (s := passedOn (stageOf h e) h s) hholds.1 he
  refine ⟨fun p hp => ?_, fun hl hroom => ?_, fun hl hfull => ?_⟩
  · exact exec_request_changes_staged hr hholds (windowBytes_stageOf h e) (exec_stageOf h e s)
      (htake.trans (stage_of_listed hp))
  · exact exec_request_changes_staged hr hholds (windowBytes_stageOf h e) (exec_stageOf h e s)
      (htake.trans (stage_of_room hl hroom))
  · exact onlyAnswers_of_take hr (windowBytes_stageOf h e) (exec_stageOf h e s) (htake.trans (stage_of_full hl hfull))

end Sys2Proof.Proofs
end

section
/-! PROOFS. What ends a session, or a commit, without a request: COMMIT_COMPLETION with a conflict (R134, R135) and
IDLE_EXPIRY (R128). -/

namespace Sys2Proof.Proofs

open Sys2Proof.Machine Sys2Proof.Stated

/-! ## The first conflict -/

theorem isEdge_eq (t : Trigger) : t.isEdge = (t == .rise || t == .fall || t == .both) := by
  cases t <;> rfl

theorem not_isEdge_eq (t : Trigger) : (!t.isEdge) = (t == .high || t == .low) := by
  cases t <;> rfl

theorem edgeToLevel_eq_toLevel (i : SourceId) (old new : SourceConfig) : edgeToLevel i old new = toLevel i old new := by
  rw [edgeToLevel, toLevel, isEdge_eq old.trigger, not_isEdge_eq new.trigger]

/-- R134: what the model and the statement call a conflict is the same. -/
theorem isConflict_eq_conflicts (s : State) (e : StagedEntry) : isConflict s e = conflicts s e := by
  cases e with
  | source i c =>
    have hlive : (s.sourceTicket i).isSome = s.liveTickets.any fun u => u.source == i := List.isSome_find?
    simp only [isConflict, conflicts, hlive, edgeToLevel_eq_toLevel]
  | lane k limit => rfl
  | line i us => rfl

/-- R135: the first conflicting entry and its position. -/
theorem firstConflict_eq_some {s : State} {l : List StagedEntry} {p : Nat} {e : StagedEntry} (hp : l[p]? = some e)
    (hconflict : conflicts s e = true) (hbefore : ∀ q < p, ∀ x ∈ l[q]?, conflicts s x = false) :
    firstConflict s l = some (p, e.target) := by
  induction l generalizing p with
  | nil => cases hp
  | cons y rest ih =>
    unfold firstConflict
    rw [isConflict_eq_conflicts]
    cases p with
    | zero =>
      cases hp
      rw [if_pos hconflict]
    | succ p =>
      have hy : conflicts s y = false := hbefore 0 (Nat.succ_pos p) y rfl
      rw [hy, ih hp fun q hq => hbefore (q + 1) (Nat.succ_lt_succ hq)]
      rfl

/-! ## COMMIT_COMPLETION -/

/-- R134: a commit in flight that has a conflict completes with it. -/
theorem exec_commitCompletion_of_conflict {s : State} {h : HostId} {p : Nat} {t : Target}
    (hheld : s.edit.holder = some h) (hflight : s.edit.commitInFlight = true)
    (hfirst : firstConflict s s.edit.staged = some (p, t)) :
    exec .commitCompletion s = .next (completeConflict h p t s) := by
  show execCommitCompletion s = _
  simp only [execCommitCompletion, hheld, hflight, hfirst, if_true]

/-- R153: the answer to a request passed on before, formed on a state `v` with the ports of `s`. -/
theorem answersWaiting_formAnswer {s v : State} (h : HostId) (a : Answer) (hports : v.ports = s.ports) :
    AnswersWaiting h a s (formAnswer h a v) := by
  have hport (x : HostId) : v.port x = s.port x := congrArg (fun ports => ports[x]) hports
  refine ⟨?_, fun x hx => ?_⟩
  · simp [answerFlags, hport, answeredPort, Port.answer]
  · simp [hport, Ne.symm hx]

/-- Settles O37: the completion finds the first conflict, and answers it from the reopened session. -/
theorem commitConflictAppliesNothing : Obligations.CommitConflictAppliesNothing := by
  intro s h p e hheld hflight hp hconflict hbefore
  have hexec := exec_commitCompletion_of_conflict hheld hflight (firstConflict_eq_some hp hconflict hbefore)
  rw [completeConflict, target_bytes] at hexec
  exact ⟨_, hexec, rfl, rfl, setEditState_host_self .., fun x hx => setEditState_host_ne _ _ hx,
    answersWaiting_formAnswer h _ rfl⟩

/-! ## IDLE_EXPIRY -/

/-- R128: with no commit in flight, the expiry at the reached deadline is taken. -/
theorem exec_idleExpiry_of_reached {s : State} {h : HostId} {d : Millis} (hholds : Holds s h)
    (hdeadline : s.edit.idleDeadline = some d) (hreached : reachedMs s.now d = true) :
    exec .idleExpiry s = .next (recomputeAtn (storeFault (.editExpired h) (endSession h s))) := by
  obtain ⟨hheld, hflight⟩ := hholds
  show execIdleExpiry s = _
  simp [execIdleExpiry, idleExpired, hheld, hflight, hdeadline, hreached]

/-- Settles O39: the ended session, then the one store, whose notice reads nothing that the end has changed. -/
theorem idleExpiryEndsTheSession : Obligations.IdleExpiryEndsTheSession := by
  intro s h d hholds hdeadline hreached
  refine ⟨_, exec_idleExpiry_of_reached hholds hdeadline hreached, ?_, ?_, ?_, fun x hx => ?_, ?_, ?_, fun i hi => ?_,
    atnShown_recomputeAtn _⟩
  · rw [storeFault_frame]
    rfl
  · rw [recomputeAtn_edit, storeFault_edit]
    rfl
  · rw [recomputeAtn_host, storeFault_host]
    exact setEditState_host_self ..
  · rw [recomputeAtn_host, storeFault_host]
    exact setEditState_host_ne _ _ hx
  · rw [recomputeAtn_faults, storeFault_faults]
    exact store_eq_stored ..
  · rw [recomputeAtn_source, storeFault_source_self]
    exact noticed_congr (s := endSession h s) (t := s) rfl (fun x => setEditState_attached h x .none _) _
  · rw [recomputeAtn_source, storeFault_other _ _ (Ne.symm hi)]
    rfl

end Sys2Proof.Proofs
end

section
/-! PROOFS. The fault queue: FAULT_TAKE (R145), and the store of a record with its notice to S63 (R142, R143, R20). -/

namespace Sys2Proof.Proofs

open Sys2Proof.Machine Sys2Proof.Stated

/-! ## FAULT_TAKE -/

theorem exec_faultTake (h : HostId) (s : State) :
    exec (.faultTake h) s = .next (request h 0 (fun x => answerRequest h (takeFaultTake x)) s) := rfl

theorem windowBytes_faultTake (h : HostId) : windowBytes (.faultTake h) = 0 + 3 := rfl

theorem takeFaultTake_empty {s : State} (hempty : s.faults.records = []) : takeFaultTake s = (s, .bare .none) := by
  simp only [takeFaultTake, hempty]

theorem takeFaultTake_oldest {s : State} {r : FaultRecord} {rest : List FaultRecord}
    (hrecords : s.faults.records = r :: rest) :
    takeFaultTake s =
      (s.setFaults { s.faults with records := rest }, .okWith (faultBytes r ++ [BitVec.ofNat 8 rest.length])) := by
  simp only [takeFaultTake, hrecords, recordBytes_eq_faultBytes, byteOf]

/-- Settles O27: whether the list holds a record decides between the fault queue's two answers. -/
theorem faultTakeRemovesTheOldest : Obligations.FaultTakeRemovesTheOldest := by
  refine fun s h hr => ⟨fun hempty => ?_, fun r rest hrecords => ?_⟩
  · exact onlyAnswers_of_take hr (windowBytes_faultTake h) (exec_faultTake h s) (takeFaultTake_empty hempty)
  · obtain ⟨t, ht, hframe, hrestarted, hanswers⟩ :=
      exec_request_changes_edit hr (windowBytes_faultTake h) (exec_faultTake h s)
        (takeFaultTake_oldest (s := passedOn (.faultTake h) h s) hrecords) rfl
    exact ⟨t, ht, hframe, hrestarted, hanswers⟩

/-! ## The store -/

/-- Settles O28: the store's frame, the queue it leaves, the notice that S63 takes, and the sources it does not
reach. -/
theorem storesKeepTheNewestRecords : Obligations.StoresKeepTheNewestRecords := by
  refine fun s cause => ⟨storeFault_frame s cause, ?_, storeFault_source_self cause s,
    fun i hi => storeFault_other cause s (Ne.symm hi)⟩
  rw [storeFault_faults, store_eq_stored]

end Sys2Proof.Proofs
end

section
/-! PROOFS. The bytes of the host port's frames: the CRC-8 of R152, and the flags byte and length byte of R162. -/

namespace Sys2Proof.Proofs

open Sys2Proof.Machine

/-! ## The check byte -/

theorem crc8_nil : crc8 [] = 0 := rfl

/-- The recursion that R152 gives: one more byte is one more step of the register. -/
theorem crc8_concat (bs : List Byte) (b : Byte) : crc8 (bs ++ [b]) = crcByte (crc8 bs) b :=
  List.foldl_concat ..

theorem crcShift_eq_bitSeven (r : Byte) :
    crcShift r = if r.getLsbD 7 then (r <<< 1) ^^^ 0x07 else r <<< 1 := by
  rw [crcShift, BitVec.msb_eq_getLsbD_last]

/-- No 1 is ever shifted out of an empty register. -/
theorem crcShift_zero : crcShift 0 = 0 := rfl

/-- A byte equal to the register clears it, and eight shifts leave it clear. -/
theorem crcByte_self (r : Byte) : crcByte r r = 0 := by
  rw [crcByte, BitVec.xor_self]
  exact Function.iterate_fixed crcShift_zero 8

/-- R152: what a receiver obtains over a frame with its check byte. -/
theorem crc8_concat_self (bs : List Byte) : crc8 (bs ++ [crc8 bs]) = 0 := by
  rw [crc8_concat, crcByte_self]

/-! ## The answer frame -/

/-- The length byte holds the whole length: R162's limit is far below what a byte can count. -/
theorem toNat_lengthByte {n : Nat} (h : n ≤ 60) : (BitVec.ofNat 8 n).toNat = n :=
  Nat.mod_eq_of_lt (by omega)

/-- R162's flags byte, bit by bit: the four flags from bit 0 upwards, and 0 above them. -/
theorem getLsbD_flagsByte (atn attached prevUnread refused : Bool) (n : Nat) :
    (flagsByte atn attached prevUnread refused).getLsbD n = [atn, attached, prevUnread, refused].getD n false := by
  simp only [flagsByte, BitVec.getLsbD_append]
  match n with
  | 0 | 1 | 2 | 3 => simp
  | n + 4 => simp

/-- Above its four flags the byte is the zero nibble they were appended to. -/
theorem flagsByte_above (atn attached prevUnread refused : Bool) {n : Nat} (h : 4 ≤ n) :
    (flagsByte atn attached prevUnread refused).getLsbD n = false := by
  rw [getLsbD_flagsByte]
  exact List.getD_eq_default _ _ h

/-- Settles O53: the check byte by its recursion, the manual's worked values and the residue, the length byte
of a frame within R162's limit, the flags byte bit by bit, and the table of status codes. -/
theorem checkBytesAndAnswerFrames : Obligations.CheckBytesAndAnswerFrames := by
  refine ⟨⟨crc8_nil, crc8_concat, crcShift_eq_bitSeven, rfl, rfl, crc8_concat_self⟩,
    fun a flags hlength => ⟨_, rfl, rfl, toNat_lengthByte hlength⟩, fun a b c d => ?_, rfl⟩
  have hbit := getLsbD_flagsByte a b c d
  exact ⟨hbit 0, hbit 1, hbit 2, hbit 3, fun _ => flagsByte_above a b c d⟩

end Sys2Proof.Proofs
end

section
/-! PROOFS. What a command can do, said once for every command: the effects of a block that takes a request (`Takes`),
and those of a command on the whole part (`Effect`), each with the conditions under which the model has it. The
statements about every command and every step go through these cases. -/

namespace Sys2Proof.Proofs

open Sys2Proof.Machine Sys2Proof.Stated Sys2Proof.Safety

/-! ## The port of a command -/

/-- The port on which command `c` is a request, a window, a read, a release or a deassertion. -/
def portOf (c : Instr) : Option HostId :=
  match c with
  | .frameRejected h _ _ => some h
  | .incompleteFrame h _ _ => some h
  | .frameWhileWorking w => some w.host
  | .answerRead h _ => some h
  | .hostRelease h => some h
  | .downDeassertion d => some d.host
  | c => (requestParts c).map Prod.fst

/-- The commands that carry the bytes of a window, which may spell a request (assumption log 8). -/
def carriesBytes (c : Instr) : Prop :=
  (∃ h bytes e, c = .frameRejected h bytes e) ∨ ∃ h window e, c = .incompleteFrame h window e

theorem portOf_of_requestParts {c : Instr} {h : HostId} {code : Byte} {operands : List Byte}
    (hc : requestParts c = some (h, code, operands)) : portOf c = some h := by
  cases c with
  | frameRejected | incompleteFrame | frameWhileWorking | answerRead | hostRelease | downDeassertion => cases hc
  | _ => exact congrArg (Option.map Prod.fst) hc

/-! ## What a block makes of a request -/

/-- The block that owns request `i` of `h` takes it in state `s` and leaves the third state: as it was, whatever the
answer, or changed by one of the rules of chapters 1 and 4 to 9. -/
inductive Takes (i : Instr) (h : HostId) (s : State) : State → Prop where
  | nothing : Takes i h s s
  | attach (mask : LaneMask) (hdetached : s.attached h = false) : Takes i h s (recomputeAtn (attachedWith h mask s))
  | detach (hattached : s.attached h = true) (hfree : s.ticketsOf h = []) (hsession : (s.host h).editState ≠ .session) :
      Takes i h s (recomputeAtn (clearOwedTo h (s.setHost h { s.host h with attached := false, laneMask := 0 })))
  | setMask (mask : LaneMask) (hattached : s.attached h = true) :
      Takes i h s (recomputeAtn (s.setHost h { s.host h with laneMask := mask }))
  | done (k : SlotId) (t : Ticket) (hslot : (s.slot k).ticket = some t) (hown : t.host = h) :
      Takes i h s (recomputeAtn (endDone k t s))
  | defer (k : SlotId) (t : Ticket) (hslot : (s.slot k).ticket = some t) (hown : t.host = h) :
      Takes i h s (recomputeAtn (endDefer k t s))
  | extend (k : SlotId) (t : Ticket) (hi : ∃ n, i = .extend h n) (hslot : (s.slot k).ticket = some t)
      (hlease : t.leaseMs ≠ 0) (hroom : t.extensions < 15) :
      Takes i h s (s.setSlot k { s.slot k with ticket := some (extendTicket s.now t) })
  | postOne (n : SourceId) (argument : Word) (hkind : kindOf n = .posted) (harmed : (s.source n).state = .armed)
      (hmode : (s.source n).config.mode = .one) (hroom : (s.source n).argQueue.length + s.heldArguments n < 4) :
      Takes i h s (recomputeAtn (s.setSource n { s.source n with argQueue := (s.source n).argQueue ++ [argument] }))
  | postEach (n : SourceId) (argument : Word) (hkind : kindOf n = .posted) (harmed : (s.source n).state = .armed)
      (hmode : (s.source n).config.mode = .each) :
      Takes i h s
        (recomputeAtn
          (s.setSource n (markHosts s (postReaches h (s.source n)) { s.source n with mailbox := argument })))
  | rearm (n : SourceId) (hstate : (s.source n).state = .faulted) :
      Takes i h s (recomputeAtn (levelCheck n (s.setSource n (rearmRuntime (s.source n)))))
  | faultTake (r : FaultRecord) (rest : List FaultRecord) (hrecords : s.faults.records = r :: rest) :
      Takes i h s (s.setFaults { s.faults with records := rest })
  | editOpen (hattached : s.attached h = true) (hfree : s.edit.holder = none) :
      Takes i h s
        (setEditState h .session
          (s.setEdit { EditUnit.reset with holder := some h, idleDeadline := some (msAfter s.now Config.idleTime) }))
  | editClose (hheld : s.edit.holder = some h) : Takes i h s (endSession h s)
  | staged (e : StagedEntry) (hheld : s.edit.holder = some h) (hvalid : StagedEntry.Valid e)
      (hroom : positionOf e.target s.edit.staged = none → s.edit.staged.length < 16) :
      Takes i h s (setStaged (stageEntry e s.edit.staged) s)
  | dropped (p : Nat) (hheld : s.edit.holder = some h) : Takes i h s (setStaged (s.edit.staged.eraseIdx p) s)

section Blocks

variable (i : Instr) (h : HostId) (s : State)

theorem takes_attach (mask : LaneMask) : Takes i h s (takeAttach h mask s).1 := by
  cases hattached : s.attached h with
  | true => rw [takeAttach_attached mask hattached]; exact .nothing
  | false => rw [takeAttach_notAttached mask hattached]; exact .attach mask hattached

theorem takes_detach : Takes i h s (takeDetach h s).1 := by
  unfold takeDetach
  split_ifs with hdetached hheld hsession
  · exact .nothing
  · exact .nothing
  · exact .nothing
  · exact .detach (by simpa using hdetached) (by simpa using hheld) hsession

theorem takes_setMask (mask : LaneMask) : Takes i h s (takeSetMask h mask s).1 := by
  cases hattached : s.attached h with
  | false => rw [takeSetMask_notAttached mask hattached]; exact .nothing
  | true => rw [takeSetMask_attached mask hattached]; exact .setMask mask hattached

/-- A request against a ticket does nothing, or acts on the requester's own live ticket (R79). -/
theorem takes_withTicket {n : Word} {act : Ticket → State × Answer}
    (hact : ∀ t, (s.slot (slotOf n)).ticket = some t → t.host = h → Takes i h s (act t).1) :
    Takes i h s (withTicket h n act s).1 := by
  cases hlive : s.findLive n with
  | none => rw [withTicket_stale act hlive]; exact .nothing
  | some t =>
    by_cases hown : t.host = h
    · rw [withTicket_own act hlive hown]
      exact hact t (findLive_eq_some hlive).1 hown
    · rw [withTicket_denied act hlive hown]
      exact .nothing

theorem takes_done (n : Word) : Takes i h s (takeDone h n s).1 :=
  takes_withTicket i h s fun t hslot hown => .done _ t hslot hown

theorem takes_defer (n : Word) : Takes i h s (takeDefer h n s).1 :=
  takes_withTicket i h s fun t hslot hown => .defer _ t hslot hown

theorem takes_extend (n : Word) : Takes (.extend h n) h s (takeExtend h n s).1 := by
  refine takes_withTicket _ h s fun t hslot _ => ?_
  unfold extendLease Config.extendCap
  split_ifs with hlease hroom
  · exact .nothing
  · exact .extend _ t ⟨n, rfl⟩ hslot hlease hroom
  · exact .nothing

theorem takes_readTickets (b : Byte) : Takes i h s (takeReadTickets h b s).1 := by
  unfold takeReadTickets
  split_ifs <;> exact .nothing

theorem takes_readSource (b : Byte) : Takes i h s (takeReadSource b s).1 := by
  unfold takeReadSource
  split <;> exact .nothing

theorem takes_readLine (b : Byte) : Takes i h s (takeReadLine b s).1 := by
  unfold takeReadLine
  split_ifs <;> exact .nothing

theorem takes_post (b : Byte) (argument : Word) : Takes i h s (takePost h b argument s).1 := by
  unfold takePost
  cases sourceOfByte b with
  | none => exact .nothing
  | some n =>
    dsimp only
    cases hkind : kindOf n with
    | watch => exact .nothing
    | notice => exact .nothing
    | posted =>
      dsimp only
      split_ifs with _ _ hstate
      · exact .nothing
      · exact .nothing
      · exact .nothing
      · have harmed : (s.source n).state = .armed := by simpa using hstate
        cases hmode : (s.source n).config.mode with
        | one =>
          by_cases hroom : (s.source n).argQueue.length + s.heldArguments n < 4
          · rw [postOne_of_room argument hroom]
            exact .postOne n argument hkind harmed hmode hroom
          · rw [postOne_of_full argument (Nat.not_lt.mp hroom)]
            exact .nothing
        | each => exact .postEach n argument hkind harmed hmode

theorem takes_rearm (b : Byte) : Takes i h s (takeRearm h b s).1 := by
  unfold takeRearm
  cases sourceOfByte b with
  | none => exact .nothing
  | some n =>
    dsimp only
    split_ifs with _ _ hstate
    · exact .nothing
    · exact .nothing
    · exact .nothing
    · exact .rearm n (by simpa using hstate)

theorem takes_faultTake : Takes i h s (takeFaultTake s).1 := by
  cases hrecords : s.faults.records with
  | nil => rw [takeFaultTake_empty hrecords]; exact .nothing
  | cons r rest => rw [takeFaultTake_oldest hrecords]; exact .faultTake r rest hrecords

theorem takes_editOpen : Takes i h s (takeEditOpen h s).1 := by
  unfold takeEditOpen
  split
  · exact .nothing
  · next hattached =>
    cases hholder : s.edit.holder with
    | some x => dsimp only; split <;> exact .nothing
    | none => exact .editOpen (by simpa using hattached) hholder

theorem isHolder_iff {s : State} {h : HostId} : s.isHolder h = true ↔ s.edit.holder = some h := beq_iff_eq

theorem takes_editClose : Takes i h s (takeEditClose h s).1 := by
  unfold takeEditClose
  split
  · exact .nothing
  · next hheld => exact .editClose (isHolder_iff.mp (by simpa using hheld))

/-- R129: what a record's bytes give for a target is a valid entry. -/
theorem valid_of_parseRecord {t : Target} {record : List Byte} {e : StagedEntry} (he : parseRecord t record = some e) :
    StagedEntry.Valid e := by
  unfold parseRecord at he
  cases t with
  | source n =>
    dsimp only at he
    split at he
    · split_ifs at he with hvalid
      cases he
      exact hvalid
    · cases he
  | lane k =>
    dsimp only at he
    split at he
    · split_ifs at he with hvalid
      cases he
      exact hvalid
    · cases he
  | line l =>
    dsimp only at he
    split at he
    · split_ifs at he with hvalid
      cases he
      exact hvalid
    · cases he

theorem takes_stage {e : StagedEntry} (hheld : s.edit.holder = some h) (hvalid : StagedEntry.Valid e) :
    Takes i h s (stage e s).1 := by
  unfold stage
  dsimp only
  split
  · next p hp => exact .staged e hheld hvalid (by simp [hp])
  · split
    · exact .nothing
    · next hroom => exact .staged e hheld hvalid fun _ => Nat.not_le.mp hroom

theorem takes_editStage (kind number : Byte) (record : List Byte) :
    Takes i h s (takeEditStage h kind number record s).1 := by
  unfold takeEditStage
  split
  · exact .nothing
  · next hheld =>
    split
    · exact .nothing
    · split
      · exact .nothing
      · next he => exact takes_stage i h s (isHolder_iff.mp (by simpa using hheld)) (valid_of_parseRecord he)

theorem takes_editDrop (kind number : Byte) : Takes i h s (takeEditDrop h kind number s).1 := by
  unfold takeEditDrop
  split
  · exact .nothing
  · next hheld =>
    split
    · exact .nothing
    · split
      · exact .nothing
      · exact .dropped _ (isHolder_iff.mp (by simpa using hheld))

theorem takes_editList (b : Byte) : Takes i h s (takeEditList h b s).1 := by
  unfold takeEditList
  split_ifs <;> exact .nothing

end Blocks

/-! ## What a command can do -/

/-- What a window that no block takes makes of the port it is on, which does not ignore it (R148 to R155). -/
inductive WindowMove (p : Port) : Port → Prop where
  | refused (n : Nat) (hworking : p.state = .working) : WindowMove p (p.putZeros n).refuse
  | putsOut (out : List Byte) : WindowMove p { p with shiftedOut := out }
  | readWhole (out : List Byte) (hanswered : p.state = .answered) :
      WindowMove p { p with state := .idle, answerBuffer := [], shiftedOut := out }
  | rejected (n : Nat) (bytes : List Byte) (a : Answer) (flags : Byte) (hfree : p.state ≠ .working) :
      WindowMove p ((((p.putZeros n).openRequest.clockIn bytes).disposeAnswer).answer a flags)
  | dropped (n : Nat) (bytes : List Byte) (hfree : p.state ≠ .working) :
      WindowMove p ((p.putZeros n).openRequest.clockIn bytes).discardFrame

/-- The port of a good frame with `n` operand bytes, passed on (R148, R151, R153). -/
abbrev passedPort (n : Nat) (p : Port) : Port := (((p.putZeros (n + 3)).openRequest).disposeAnswer).passOn

/-- What command `c` can do in state `s`. -/
inductive Effect (c : Instr) (s : State) : State → Prop where
  | nothing : Effect c s s
  | ignored (h : HostId) (hport : portOf c = some h) : Effect c s (ignoreWindow h s)
  | window (h : HostId) (p : Port) (n : Nat) (hport : portOf c = some h) (hlistens : windowIgnored s h = false)
      (hmove : WindowMove (s.port h) p) : Effect c s ((s.setPort h p).setDrawn n)
  | taken (i : Instr) (h : HostId) (n : Nat) (v : State) (a : Answer) (hspells : i = c ∨ carriesBytes c)
      (hport : portOf c = some h) (hlistens : windowIgnored s h = false) (hfree : (s.port h).state ≠ .working)
      (htakes : Takes i h (s.setPort h (passedPort n (s.port h))) v) : Effect c s (answerRequest h (v, a))
  | claim (h : HostId) (n : Nat) (choice : Byte) (hport : portOf c = some h) (hlistens : windowIgnored s h = false)
      (hfree : (s.port h).state ≠ .working) :
      Effect c s ((s.setPort h (passedPort n (s.port h))).setWaiting h (some choice))
  | commitBegun (h : HostId) (n : Nat) (hport : portOf c = some h) (hlistens : windowIgnored s h = false)
      (hfree : (s.port h).state ≠ .working) (hheld : s.edit.holder = some h) :
      Effect c s (beginCommit h (s.setPort h (passedPort n (s.port h))))
  | claimRefused (h : HostId) (a : Answer) (hport : portOf c = none) (hwaits : (s.waitingClaim h).isSome = true) :
      Effect c s (answerRequest h (claimOff h s, a))
  | claimIssued (h : HostId) (i : SourceId) (k : SlotId) (a : Answer) (hport : portOf c = none)
      (hwaits : (s.waitingClaim h).isSome = true) (hi : deliverable s i h = true) (hk : (s.slot k).ticket = none) :
      Effect c s (answerRequest h (issue h i k (claimOff h s), a))
  | conflict (h : HostId) (p : Nat) (t : Target) (hc : c = .commitCompletion) (hheld : s.edit.holder = some h)
      (hflight : s.edit.commitInFlight = true) : Effect c s (completeConflict h p t s)
  | applied (h : HostId) (hc : c = .commitCompletion) (hheld : s.edit.holder = some h)
      (hflight : s.edit.commitInFlight = true) (hfree : ∀ e ∈ s.edit.staged, isConflict s e = false) :
      Effect c s (completeApply h s)
  | idleExpired (h : HostId) (hport : portOf c = none) (hheld : s.edit.holder = some h)
      (hflight : s.edit.commitInFlight = false) :
      Effect c s (recomputeAtn (storeFault (.editExpired h) (endSession h s)))
  | leaseExpired (k : SlotId) (t : Ticket) (hport : portOf c = none) (hslot : (s.slot k).ticket = some t) :
      Effect c s (recomputeAtn (endExpired k t s))
  | released (h : HostId) (hport : portOf c = some h) (hup : (s.port h).state ≠ .down) : Effect c s (release h s)
  | deasserted (h : HostId) (windowOpen : Bool) (hport : portOf c = some h) (hdown : (s.port h).state = .down) :
      Effect c s (s.setPort h ((s.port h).leaveDown windowOpen))
  | deviceReset (hc : c = .deviceReset) : Effect c s (deviceReset s)
  | resetEnded (found : ResetEnd) (hport : portOf c = none) (hsampled : s.sampled = false) :
      Effect c s (endReset found s)
  | settling (l : LineId) (level : Bool) (deadline : Option Nat) (hport : portOf c = none) (hsampled : s.sampled = true)
      (hlevel : (s.line l).rawLevel ≠ level)
      (hdeadline :
        (deadline = none ∧ (s.line l).settleDeadline ≠ none) ∨
          (deadline = some (s.clock.us + (s.line l).settleUs) ∧ (s.line l).settleDeadline = none)) :
      Effect c s (s.setLine l { s.line l with rawLevel := level, settleDeadline := deadline })
  | edge (l : LineId) (level : Bool) (hport : portOf c = none)
      (hline : s.sampled = true ∨ (s.line l).settling = true) : Effect c s (acceptEdge l level s)

theorem setPort_setPort (s : State) (h : HostId) (p q : Port) : (s.setPort h p).setPort h q = s.setPort h q := by
  simp [State.setPort]

section Windows

variable {c : Instr} {h : HostId} {s : State} (hport : portOf c = some h)
include hport

/-- A request window is ignored, refused or passed on, and what is passed on has the effect it is given to have. -/
theorem effect_request {n : Nat} {take : State → State}
    (htake : windowIgnored s h = false → (s.port h).state ≠ .working →
      Effect c s (take (s.setPort h (passedPort n (s.port h))))) : Effect c s (request h n take s) := by
  rcases request_cases h n take s with ⟨_, heq⟩ | ⟨hlistens, hworking, heq⟩ | ⟨hlistens, hfree, heq⟩
  · rw [heq]
    exact .ignored h hport
  · rw [heq]
    exact .window h _ s.drawn hport hlistens (.refused _ hworking)
  · rw [heq]
    exact htake hlistens hfree

/-- The same for a request that its block takes and answers at once. -/
theorem effect_request_taken {i : Instr} {n : Nat} {take : State → State × Answer} (hspells : i = c ∨ carriesBytes c)
    (htakes : ∀ x, Takes i h x (take x).1) : Effect c s (request h n (fun x => answerRequest h (take x)) s) :=
  effect_request hport fun hlistens hfree => .taken i h n _ _ hspells hport hlistens hfree (htakes _)

theorem effect_rejectFrame (bytes : List Byte) (st : Status) : Effect c s (rejectFrame h bytes st s) := by
  unfold rejectFrame
  dsimp only
  split_ifs with hignored hworking
  · exact .ignored h hport
  · exact .window h _ s.drawn hport (by simpa using hignored) (.refused _ hworking)
  · have hform (p : Port) (a : Answer) :
        formAnswer h a (s.setPort h p) = s.setPort h (p.answer a (answerFlags (s.setPort h p) h)) := by
      rw [formAnswer, State.setPort_port_self, setPort_setPort]
    rw [hform]
    exact .window h _ s.drawn hport (by simpa using hignored) (.rejected _ bytes _ _ hworking)

theorem effect_dropFrame (bytes : List Byte) : Effect c s (dropFrame h bytes s) := by
  unfold dropFrame
  dsimp only
  split_ifs with hignored hworking
  · exact .ignored h hport
  · exact .window h _ s.drawn hport (by simpa using hignored) (.refused _ hworking)
  · exact .window h _ s.drawn hport (by simpa using hignored) (.dropped _ bytes hworking)

theorem effect_workingWindow (count : Nat) : Effect c s (workingWindow h count s) := by
  unfold workingWindow
  split_ifs with hignored hworking
  · exact .ignored h hport
  · exact .window h _ s.drawn hport (by simpa using hignored) (.refused _ hworking)
  · exact .nothing

theorem effect_otherWindow (count : Nat) : Effect c s (otherWindow h count s) := by
  unfold otherWindow
  split_ifs with hignored
  · exact .ignored h hport
  · exact .window h _ _ hport (by simpa using hignored) (.putsOut _)

theorem effect_readWindow (count : Nat) : Effect c s (readWindow h count s) := by
  unfold readWindow
  split_ifs with hignored
  · exact .ignored h hport
  · have hlistens : windowIgnored s h = false := by simpa using hignored
    dsimp only
    split
    · next hstate =>
      unfold Port.readAnswer
      split_ifs
      · exact .window h _ s.drawn hport hlistens (.readWhole _ hstate)
      · exact .window h _ s.drawn hport hlistens (.putsOut _)
    · exact .window h _ s.drawn hport hlistens (.putsOut _)
    · exact .window h _ s.drawn hport hlistens (.putsOut _)
    · exact .nothing
    · exact .nothing

theorem effect_editCommit {i : Instr} {n : Nat} (hspells : i = c ∨ carriesBytes c) :
    Effect c s (request h n (takeEditCommit h) s) := by
  refine effect_request hport fun hlistens hfree => ?_
  unfold takeEditCommit
  split
  · exact .taken i h n _ _ hspells hport hlistens hfree .nothing
  · next hheld =>
    have hholder : (s.setPort h (passedPort n (s.port h))).isHolder h = true := by simpa using hheld
    exact .commitBegun h n hport hlistens hfree (isHolder_iff.mp hholder)

end Windows

/-- A request, by its own command or spelled by the bytes of a window on the same port. -/
theorem effect_execRequest {c i : Instr} {s t : State} (hspells : i = c ∨ carriesBytes c)
    (hport : ∀ x, portOf i = some x → portOf c = some x) (ht : execRequest i s = .next t) : Effect c s t := by
  cases i with
  | attach h mask =>
    cases ht; exact effect_request_taken (hport h rfl) hspells fun x => takes_attach _ h x mask
  | detach h => cases ht; exact effect_request_taken (hport h rfl) hspells (takes_detach _ h)
  | setMask h mask =>
    cases ht; exact effect_request_taken (hport h rfl) hspells fun x => takes_setMask _ h x mask
  | claim h choice => cases ht; exact effect_request (hport h rfl) (.claim h 1 choice (hport h rfl))
  | done h n => cases ht; exact effect_request_taken (hport h rfl) hspells fun x => takes_done _ h x n
  | defer h n => cases ht; exact effect_request_taken (hport h rfl) hspells fun x => takes_defer _ h x n
  | extend h n => cases ht; exact effect_request_taken (hport h rfl) hspells fun x => takes_extend h x n
  | readTickets h b => cases ht; exact effect_request_taken (hport h rfl) hspells fun x => takes_readTickets _ h x b
  | readSource h b => cases ht; exact effect_request_taken (hport h rfl) hspells fun x => takes_readSource _ h x b
  | readStatus h => cases ht; exact effect_request_taken (hport h rfl) hspells fun _ => .nothing
  | readLine h b => cases ht; exact effect_request_taken (hport h rfl) hspells fun x => takes_readLine _ h x b
  | post h b argument =>
    cases ht; exact effect_request_taken (hport h rfl) hspells fun x => takes_post _ h x b argument
  | rearm h b => cases ht; exact effect_request_taken (hport h rfl) hspells fun x => takes_rearm _ h x b
  | faultTake h => cases ht; exact effect_request_taken (hport h rfl) hspells (takes_faultTake _ h)
  | faultPeek h => cases ht; exact effect_request_taken (hport h rfl) hspells fun _ => .nothing
  | editOpen h => cases ht; exact effect_request_taken (hport h rfl) hspells (takes_editOpen _ h)
  | editStage h kind number record =>
    change execEditStage h kind number record s = .next t at ht
    unfold execEditStage at ht
    split at ht
    · cases ht
      exact effect_request_taken (hport h rfl) hspells fun x => takes_editStage _ h x kind number record
    · cases ht
      exact effect_rejectFrame (hport h rfl) _ _
  | editDrop h kind number =>
    cases ht; exact effect_request_taken (hport h rfl) hspells fun x => takes_editDrop _ h x kind number
  | editList h b => cases ht; exact effect_request_taken (hport h rfl) hspells fun x => takes_editList _ h x b
  | editCommit h => cases ht; exact effect_editCommit (hport h rfl) hspells
  | editClose h => cases ht; exact effect_request_taken (hport h rfl) hspells (takes_editClose _ h)
  | claimTaken | commitCompletion | idleExpiry | leaseExpiry | hostRelease | downDeassertion | deviceReset
  | startUpAcceptance | rawChange | settleExpiry | frameRejected | incompleteFrame | frameWhileWorking
  | answerRead => cases ht; exact .nothing

theorem forall_mem_ite {p : Instr → Prop} {c : Prop} [Decidable c] {a b : Option Instr} (ha : c → ∀ i ∈ a, p i)
    (hb : ∀ i ∈ b, p i) : ∀ i ∈ if c then a else b, p i := by
  split
  · next hc => exact ha hc
  · exact hb

/-- R160: the bytes of a word put together of two bytes are these. -/
theorem wordBytes_wordOf (a b : Byte) : wordBytes (wordOf a b) = [a, b] := by
  have ha : (a ++ b).extractLsb' 8 8 = a := BitVec.extractLsb'_append_eq_left
  have hb : (a ++ b).extractLsb' 0 8 = b := BitVec.extractLsb'_append_eq_right
  simp only [wordBytes, wordOf, ha, hb]

/-- A good frame on `h`'s port spells a request on that port, whose code and operands are the frame's (R153, R161). -/
theorem requestParts_of_decodeRequest {h : HostId} {code : Byte} {operands : List Byte} :
    ∀ i ∈ decodeRequest h code operands, requestParts i = some (h, code, operands) := by
  unfold decodeRequest
  repeat' refine forall_mem_ite (fun hc => ?_) ?_
  all_goals intro i hi
  any_goals split at hi
  all_goals cases hi
  all_goals
    subst hc
    simp only [requestParts, wordBytes_wordOf]

theorem effect_requestWindow {c : Instr} {h : HostId} {bytes : List Byte} {e : Nat} {s t : State}
    (hbytes : carriesBytes c) (hport : portOf c = some h) (ht : requestWindow h bytes e s = .next t) :
    Effect c s t := by
  unfold requestWindow at ht
  split at ht
  · cases ht
    exact effect_dropFrame hport bytes
  · cases ht
    exact effect_rejectFrame hport bytes _
  · cases ht
    exact effect_rejectFrame hport bytes _
  · split at ht
    · next i hi =>
      have hparts := requestParts_of_decodeRequest i hi
      refine effect_execRequest (.inr hbytes) (fun x hx => ?_) ht
      rw [hport, ← hx, portOf_of_requestParts hparts]
    · cases ht
      exact .nothing

/-! ## The events of the part -/

theorem waitingClaim_of_nextClaim {s : State} {h : HostId} {b : Byte} (hnext : nextClaim s = some (h, b)) :
    s.waitingClaim h = some b := by
  unfold nextClaim at hnext
  split at hnext
  · split at hnext
    · next hb =>
      cases hnext
      exact hb
    · cases hnext
  · cases hnext

/-- A claim that is taken gets nothing, or a ticket of a source deliverable to its host, into a free slot. -/
theorem takeClaim_cases (h : HostId) (b : Byte) (s : State) :
    (takeClaim h b s).1 = s ∨
      ∃ i k, deliverable s i h = true ∧ (s.slot k).ticket = none ∧ (takeClaim h b s).1 = issue h i k s := by
  unfold takeClaim
  split
  · exact .inl rfl
  · split
    · exact .inl rfl
    · next choice _ =>
      split_ifs
      · exact .inl rfl
      · exact .inl rfl
      · unfold serveClaim
        split
        · next i k hi hk =>
          exact .inr ⟨i, k, (best_of_select hi).1.1, (lowestFree_eq_some hk).1, rfl⟩
        · exact .inl rfl

theorem effect_claimTaken {s t : State} (ht : exec .claimTaken s = .next t) : Effect .claimTaken s t := by
  change execClaimTaken s = .next t at ht
  unfold execClaimTaken at ht
  split at ht
  · cases ht
    exact .nothing
  · next h b hnext =>
    cases ht
    have hwaits : (s.waitingClaim h).isSome = true := by simp [waitingClaim_of_nextClaim hnext]
    have hcases := takeClaim_cases h b (claimOff h s)
    generalize takeClaim h b (claimOff h s) = r at hcases ⊢
    obtain ⟨v, a⟩ := r
    rcases hcases with rfl | ⟨i, k, hi, hk, rfl⟩
    · exact .claimRefused h a rfl hwaits
    · exact .claimIssued h i k a rfl hwaits hi hk

theorem firstConflict_eq_none {s : State} {l : List StagedEntry} (hnone : firstConflict s l = none) :
    ∀ e ∈ l, isConflict s e = false := by
  induction l with
  | nil => simp
  | cons e rest ih =>
    unfold firstConflict at hnone
    split at hnone
    · cases hnone
    · next he =>
      intro x hx
      rcases List.mem_cons.mp hx with rfl | hx
      · simpa using he
      · exact ih (by simpa using hnone) x hx

theorem effect_commitCompletion {s t : State} (ht : exec .commitCompletion s = .next t) :
    Effect .commitCompletion s t := by
  change execCommitCompletion s = .next t at ht
  unfold execCommitCompletion at ht
  split at ht
  · cases ht
    exact .nothing
  · next h hheld =>
    split at ht
    · next hflight =>
      split at ht
      · cases ht
        exact .conflict h _ _ rfl hheld hflight
      · next hnone =>
        cases ht
        exact .applied h rfl hheld hflight (firstConflict_eq_none hnone)
    · cases ht
      exact .nothing

theorem effect_idleExpiry {s t : State} (ht : exec .idleExpiry s = .next t) : Effect .idleExpiry s t := by
  change execIdleExpiry s = .next t at ht
  unfold execIdleExpiry idleExpired at ht
  cases hholder : s.edit.holder with
  | none => simp only [hholder] at ht; cases ht; exact .nothing
  | some h =>
    cases hdeadline : s.edit.idleDeadline with
    | none => simp only [hholder, hdeadline] at ht; cases ht; exact .nothing
    | some d =>
      simp only [hholder, hdeadline] at ht
      by_cases hdue : s.edit.commitInFlight = false ∧ reachedMs s.now d = true
      · rw [if_pos hdue] at ht
        cases ht
        exact .idleExpired h rfl hholder hdue.1
      · rw [if_neg hdue] at ht
        cases ht
        exact .nothing

theorem ticket_of_expiredIn {s : State} {k : SlotId} {t : Ticket} (ht : expiredIn s k = some t) :
    (s.slot k).ticket = some t := by
  unfold expiredIn at ht
  split at ht
  · split at ht
    · split_ifs at ht
      cases ht
      assumption
    · cases ht
  · cases ht

theorem effect_leaseExpiry {k : SlotId} {s t : State} (ht : exec (.leaseExpiry k) s = .next t) :
    Effect (.leaseExpiry k) s t := by
  change execLeaseExpiry k s = .next t at ht
  unfold execLeaseExpiry at ht
  split at ht
  · next tk hdue =>
    cases ht
    exact .leaseExpired k tk rfl (ticket_of_expiredIn hdue)
  · cases ht
    exact .nothing

theorem effect_hostRelease {h : HostId} {s t : State} (ht : exec (.hostRelease h) s = .next t) :
    Effect (.hostRelease h) s t := by
  change execHostRelease h s = .next t at ht
  unfold execHostRelease at ht
  split_ifs at ht with hdown
  · cases ht
    exact .nothing
  · cases ht
    exact .released h rfl hdown

theorem effect_downDeassertion {d : Deassertion} {s t : State} (ht : exec (.downDeassertion d) s = .next t) :
    Effect (.downDeassertion d) s t := by
  change execDownDeassertion d s = .next t at ht
  unfold execDownDeassertion at ht
  split_ifs at ht with hdown
  · cases ht
    exact .deasserted d.host d.windowOpen rfl hdown
  · cases ht
    exact .nothing

theorem effect_startUpAcceptance {found : ResetEnd} {s t : State} (ht : exec (.startUpAcceptance found) s = .next t) :
    Effect (.startUpAcceptance found) s t := by
  change execStartUpAcceptance found s = .next t at ht
  unfold execStartUpAcceptance at ht
  split_ifs at ht with hsampled
  · cases ht
    exact .nothing
  · cases ht
    exact .resetEnded found rfl (by simpa using hsampled)

theorem effect_rawChange {l : LineId} {level : Bool} {s t : State} (ht : exec (.rawChange l level) s = .next t) :
    Effect (.rawChange l level) s t := by
  change execRawChange l level s = .next t at ht
  unfold execRawChange at ht
  split_ifs at ht with hchange
  · obtain ⟨hsampled, hlevel⟩ := hchange
    cases ht
    by_cases hsettling : (s.line l).settleDeadline = none
    · by_cases htime : (s.line l).settleUs = 0
      · have hedge : rawChange l level s = acceptEdge l level s := by simp [rawChange, hsettling, htime]
        rw [hedge]
        exact .edge l level rfl (.inl hsampled)
      · rw [rawChange_of_steady level hsettling (Nat.pos_of_ne_zero htime)]
        exact .settling l level _ rfl hsampled hlevel (.inr ⟨rfl, hsettling⟩)
    · rw [rawChange_of_settling level hsettling]
      exact .settling l level _ rfl hsampled hlevel (.inl ⟨rfl, hsettling⟩)
  · cases ht
    exact .nothing

theorem effect_settleExpiry {l : LineId} {s t : State} (ht : exec (.settleExpiry l) s = .next t) :
    Effect (.settleExpiry l) s t := by
  change execSettleExpiry l s = .next t at ht
  unfold execSettleExpiry at ht
  split_ifs at ht with hdue
  · cases ht
    refine .edge l _ rfl (.inr ?_)
    unfold settleDue at hdue
    split at hdue
    · next hd => simp [Line.settling, hd]
    · cases hdue
  · cases ht
    exact .nothing

theorem effect_incompleteFrame {h : HostId} {window : Clocked} {e : Nat} {s t : State}
    (ht : exec (.incompleteFrame h window e) s = .next t) : Effect (.incompleteFrame h window e) s t := by
  change execIncompleteFrame h window e s = .next t at ht
  unfold execIncompleteFrame at ht
  split at ht
  · cases ht
    exact .ignored h rfl
  · split_ifs at ht
    · exact effect_requestWindow (.inr ⟨h, window, e, rfl⟩) rfl ht
    · cases ht
      exact effect_readWindow rfl _
    · cases ht
      exact effect_otherWindow rfl _

/-- What a command can do, said once. -/
theorem effect_of_exec {c : Instr} {s t : State} (ht : exec c s = .next t) : Effect c s t := by
  have hrequest (hc : exec c s = execRequest c s) : Effect c s t :=
    effect_execRequest (.inl rfl) (fun _ hx => hx) (hc.symm.trans ht)
  cases c with
  | claimTaken => exact effect_claimTaken ht
  | commitCompletion => exact effect_commitCompletion ht
  | idleExpiry => exact effect_idleExpiry ht
  | leaseExpiry k => exact effect_leaseExpiry ht
  | hostRelease h => exact effect_hostRelease ht
  | downDeassertion d => exact effect_downDeassertion ht
  | deviceReset => cases ht; exact .deviceReset rfl
  | startUpAcceptance found => exact effect_startUpAcceptance ht
  | rawChange l level => exact effect_rawChange ht
  | settleExpiry l => exact effect_settleExpiry ht
  | frameRejected h bytes e => exact effect_requestWindow (.inl ⟨h, bytes, e, rfl⟩) rfl ht
  | incompleteFrame h window e => exact effect_incompleteFrame ht
  | frameWhileWorking w => cases ht; exact effect_workingWindow rfl w.count
  | answerRead h count => cases ht; exact effect_readWindow rfl count
  | _ => exact hrequest rfl

end Sys2Proof.Proofs
end

section
/-! PROOFS. What any event but a commit and a device reset can do to one source record (`SourceMove`), and to a ticket
in its slot; from these the configuration (O40) and the snapshot of a live ticket (O19) stay, and from the conditions on
the port what another host sees (O54). -/

namespace Sys2Proof.Proofs

open Sys2Proof.Machine Sys2Proof.Stated Sys2Proof.Safety

/-! ## One source record -/

/-- One change of the record of source `i` outside a commit and a device reset: while it is ARMED its runtime fields
change; a marker is cleared, in whatever state; it is abandoned, which S63 never is; it is rearmed. -/
inductive SourceMove (i : SourceId) (r : Source) : Source → Prop where
  | inService (r' : Source) (harmed : r.state = .armed) (hstays : r'.state = .armed) (hconfig : r'.config = r.config) :
      SourceMove i r r'
  | cleared (h : HostId) : SourceMove i r (r.setMarker h .clear)
  | abandoned (r' : Source) (hi : i ≠ noticeSource) (hconfig : r'.config = r.config) :
      SourceMove i r (faultRuntime r')
  | rearmed : SourceMove i r (rearmRuntime r)

/-- Any number of such changes. -/
abbrev Moves (i : SourceId) : Source → Source → Prop := Relation.ReflTransGen (SourceMove i)

/-- From `s` to `t` every source record has changed by such changes alone. -/
def SourcesMove (s t : State) : Prop := ∀ i, Moves i (s.source i) (t.source i)

theorem SourcesMove.trans {s u t : State} (h₁ : SourcesMove s u) (h₂ : SourcesMove u t) : SourcesMove s t :=
  fun i => (h₁ i).trans (h₂ i)

theorem sourcesMove_of_eq {s t : State} (h : t.sources = s.sources) : SourcesMove s t := fun i => by
  have hi : t.source i = s.source i := congrArg (fun v => v[i]) h
  rw [hi]

theorem sourcesMove_refl (s : State) : SourcesMove s s := sourcesMove_of_eq rfl

theorem moves_config {i : SourceId} {r r' : Source} (h : Moves i r r') : r'.config = r.config := by
  induction h with
  | refl => rfl
  | tail _ hmove ih =>
    cases hmove with
    | inService _ _ _ hconfig => exact hconfig.trans ih
    | cleared h => exact ih
    | abandoned _ _ hconfig => exact hconfig.trans ih
    | rearmed => exact ih

theorem sourcesMove_setSource {s : State} {i : SourceId} {r : Source} (h : Moves i (s.source i) r) :
    SourcesMove s (s.setSource i r) := fun j => by
  rw [State.setSource_source]
  split
  · next hij => exact hij ▸ h
  · exact .refl

/-- A change of the runtime fields of an ARMED source. -/
theorem sourcesMove_armed {s : State} {i : SourceId} {r : Source} (harmed : (s.source i).state = .armed)
    (hstays : r.state = .armed) (hconfig : r.config = (s.source i).config) : SourcesMove s (s.setSource i r) :=
  sourcesMove_setSource (.single (.inService r harmed hstays hconfig))

/-! ## The shared operations -/

theorem sourcesMove_levelCheck (i : SourceId) (s : State) : SourcesMove s (levelCheck i s) := by
  rcases levelCheck_cases i s with heq | ⟨harmed, _, _, _, _, heq⟩ | ⟨harmed, _, _, heq⟩
  · rw [heq]
    exact sourcesMove_refl s
  · rw [heq]
    exact sourcesMove_armed harmed harmed rfl
  · rw [heq]
    exact sourcesMove_armed harmed harmed rfl

theorem sourcesMove_levelCheckFor (h : HostId) (i : SourceId) (s : State) : SourcesMove s (levelCheckFor h i s) := by
  unfold levelCheckFor
  dsimp only
  split
  · next hc => exact sourcesMove_armed hc.1 hc.1 rfl
  · exact sourcesMove_refl s

theorem sourcesMove_foldl {α : Type} {f : State → α → State} (hf : ∀ s a, SourcesMove s (f s a)) (l : List α)
    (s : State) : SourcesMove s (l.foldl f s) := by
  induction l generalizing s with
  | nil => exact sourcesMove_refl s
  | cons a rest ih => exact (hf s a).trans (ih _)

/-- An occurrence keeps the configuration and the state of the record that counts it. -/
theorem countOccurrence_fst_config (c : Nat) (r : Source) :
    (countOccurrence c r).1.config = r.config ∧ (countOccurrence c r).1.state = r.state := by
  rcases countOccurrence_cases c r with ⟨_, heq⟩ | ⟨_, _, heq⟩ | ⟨_, _, heq⟩ <;> simp [heq]

theorem sourcesMove_count {s : State} {i : SourceId} (harmed : (s.source i).state = .armed) (c : Nat) :
    SourcesMove s (s.setSource i (countOccurrence c (s.source i)).1) := by
  obtain ⟨hconfig, hstate⟩ := countOccurrence_fst_config c (s.source i)
  exact sourcesMove_armed harmed (hstate.trans harmed) hconfig

theorem sourcesMove_takeNotice (s : State) : SourcesMove s (takeNotice s) := by
  rcases takeNotice_cases s with ⟨_, heq⟩ | ⟨harmed, _, heq⟩ | ⟨harmed, _, heq⟩
  · rw [heq]
    exact sourcesMove_refl s
  · rw [heq]
    exact sourcesMove_count harmed _
  · rw [heq]
    exact sourcesMove_armed harmed harmed rfl

theorem sourcesMove_storeFault (cause : FaultCause) (s : State) : SourcesMove s (storeFault cause s) :=
  sourcesMove_takeNotice (s.setFaults (s.faults.store s.now cause))

theorem sourcesMove_recomputeAtn (s : State) : SourcesMove s (recomputeAtn s) := sourcesMove_of_eq rfl

theorem SourcesMove.recomputeAtn {s t : State} (h : SourcesMove s t) : SourcesMove s (recomputeAtn t) :=
  h.trans (sourcesMove_recomputeAtn t)

theorem sourcesMove_edgeOccurrence {s : State} {i : SourceId} (harmed : (s.source i).state = .armed) :
    SourcesMove s (edgeOccurrence i s).1 := by
  unfold edgeOccurrence
  dsimp only
  split
  · exact sourcesMove_count harmed _
  · exact sourcesMove_armed harmed harmed rfl

theorem sourcesMove_reactToEdge (rising : Bool) (i : SourceId) (s : State) :
    SourcesMove s (reactToEdge rising i s).1 := by
  unfold reactToEdge
  dsimp only
  split
  · next harmed =>
    have hoccurs := sourcesMove_edgeOccurrence harmed
    have hchecks := sourcesMove_levelCheck i s
    have hsame := sourcesMove_refl s
    cases (s.source i).config.trigger <;> cases rising <;> simp only [if_true, Bool.false_eq_true, if_false] <;>
      assumption
  · exact sourcesMove_refl s

theorem sourcesMove_reportTo (rising : Bool) (l : List SourceId) (s : State) :
    SourcesMove s (reportTo rising l s).1 := by
  induction l generalizing s with
  | nil => exact sourcesMove_refl s
  | cons i rest ih => exact (sourcesMove_reactToEdge rising i s).trans (ih _)

theorem sourcesMove_storeOverflows (l : List SourceId) (s : State) : SourcesMove s (storeOverflows l s) := by
  induction l generalizing s with
  | nil => exact sourcesMove_refl s
  | cons i rest ih => exact (sourcesMove_storeFault _ s).trans (ih _)

theorem sourcesMove_reportEdge (l : LineId) (rising : Bool) (s : State) : SourcesMove s (reportEdge l rising s) := by
  unfold reportEdge
  dsimp only
  generalize hlost : freeOrder _ _ = lost
  exact (sourcesMove_reportTo rising (receivers s l) s).trans
    ((sourcesMove_of_eq (State.setDrawn_sources _ _)).trans (sourcesMove_storeOverflows lost _))

theorem sourcesMove_acceptEdge (l : LineId) (level : Bool) (s : State) : SourcesMove s (acceptEdge l level s) :=
  .recomputeAtn ((sourcesMove_of_eq (State.setLine_sources s l _)).trans (sourcesMove_reportEdge l level _))

theorem sourcesMove_clearOwedTo (h : HostId) (s : State) : SourcesMove s (clearOwedTo h s) := fun i => by
  rw [clearOwedTo_source]
  split
  · exact .single (.cleared h)
  · exact .refl

/-! ## The ends of a ticket -/

theorem moves_discardWork (i : SourceId) (h : HostId) (r : Source) : Moves i r (discardWork h r) := by
  unfold discardWork
  split
  · exact .refl
  · exact .single (.cleared h)

theorem sourcesMove_freeSlot (k : SlotId) (s : State) : SourcesMove s (freeSlot k s) := sourcesMove_of_eq rfl

theorem consumeWork_config (h : HostId) (r : Source) :
    (consumeWork h r).config = r.config ∧ (consumeWork h r).state = r.state := by
  unfold consumeWork
  split <;> exact ⟨rfl, rfl⟩

theorem returnWork_config (t : Ticket) (r : Source) :
    (returnWork t r).config = r.config ∧ (returnWork t r).state = r.state := by
  unfold returnWork
  split
  · split <;> exact ⟨rfl, rfl⟩
  · exact ⟨rfl, rfl⟩

theorem releaseWork_config (t : Ticket) (r : Source) :
    (releaseWork t r).config = r.config ∧ (releaseWork t r).state = r.state := by
  unfold releaseWork
  split
  · exact returnWork_config t r
  · exact ⟨rfl, rfl⟩

theorem countAttempt_config (h : HostId) (r : Source) :
    (countAttempt h r).config = r.config ∧ (countAttempt h r).state = r.state := by
  unfold countAttempt
  split <;> exact ⟨rfl, rfl⟩

/-- An end by which an ARMED source gets `work` of its record back and runs its level check, and by which any other
source discards the work. -/
theorem sourcesMove_end {s : State} {i : SourceId} {work : Source} {h : HostId}
    (hconfig : work.config = (s.source i).config ∧ work.state = (s.source i).state) :
    SourcesMove s
      (if (s.source i).state = .armed then levelCheck i (s.setSource i work)
      else s.setSource i (discardWork h (s.source i))) := by
  split
  · next harmed =>
    exact (sourcesMove_armed harmed (hconfig.2.trans harmed) hconfig.1).trans (sourcesMove_levelCheck i _)
  · exact sourcesMove_setSource (moves_discardWork i h _)

theorem sourcesMove_endDone (k : SlotId) (t : Ticket) (s : State) : SourcesMove s (endDone k t s) :=
  (sourcesMove_freeSlot k s).trans (sourcesMove_end (consumeWork_config _ _))

theorem sourcesMove_endDefer (k : SlotId) (t : Ticket) (s : State) : SourcesMove s (endDefer k t s) :=
  (sourcesMove_freeSlot k s).trans (sourcesMove_end (returnWork_config _ _))

theorem sourcesMove_expireArmed {t : Ticket} {s : State} (harmed : (s.source t.source).state = .armed) :
    SourcesMove s (expireArmed t s) := by
  obtain ⟨hreturned, hstate⟩ := returnWork_config t (s.source t.source)
  obtain ⟨hcounted, hcstate⟩ := countAttempt_config t.host (returnWork t (s.source t.source))
  unfold expireArmed
  dsimp only
  split_ifs with _ habandons
  · have hnotice : t.source ≠ noticeSource := by
      simp only [abandons, Bool.and_eq_true, bne_iff_ne] at habandons
      exact habandons.1.1
    refine .trans (sourcesMove_setSource (.single ?_)) (sourcesMove_storeFault _ _)
    exact .abandoned _ hnotice (hcounted.trans hreturned)
  · exact (sourcesMove_armed harmed (hcstate.trans (hstate.trans harmed)) (hcounted.trans hreturned)).trans
      (sourcesMove_levelCheck _ _)
  · exact (sourcesMove_armed harmed (hstate.trans harmed) hreturned).trans (sourcesMove_levelCheck _ _)

theorem sourcesMove_endExpired (k : SlotId) (t : Ticket) (s : State) : SourcesMove s (endExpired k t s) := by
  refine (sourcesMove_freeSlot k s).trans ?_
  unfold endExpired
  dsimp only
  split
  · next harmed => exact sourcesMove_expireArmed harmed
  · exact sourcesMove_setSource (moves_discardWork _ _ _)

theorem sourcesMove_endReleased (k : SlotId) (t : Ticket) (s : State) : SourcesMove s (endReleased k t s) := by
  obtain ⟨hconfig, hstate⟩ := releaseWork_config t (s.source t.source)
  refine (sourcesMove_freeSlot k s).trans ?_
  unfold endReleased
  dsimp only
  split
  · next harmed => exact sourcesMove_armed harmed (hstate.trans harmed) hconfig
  · exact sourcesMove_setSource (moves_discardWork _ _ _)

theorem sourcesMove_releaseSlot (h : HostId) (k : SlotId) (s : State) : SourcesMove s (releaseSlot h k s) := by
  unfold releaseSlot
  split
  · split
    · exact sourcesMove_endReleased k _ s
    · exact sourcesMove_refl s
  · exact sourcesMove_refl s

theorem sourcesMove_releaseTickets (h : HostId) (s : State) : SourcesMove s (releaseTickets h s) :=
  sourcesMove_foldl (f := fun x k => releaseSlot h k x) (fun x k => sourcesMove_releaseSlot h k x) allSlots s

theorem sourcesMove_releaseChecks (l : List Ticket) (s : State) : SourcesMove s (releaseChecks l s) :=
  sourcesMove_foldl (f := fun x (t : Ticket) => levelCheck t.source x)
    (fun x t => sourcesMove_levelCheck t.source x) l s

theorem sourcesMove_release (h : HostId) (s : State) : SourcesMove s (release h s) := by
  have htickets : SourcesMove s (clearOwedTo h (releaseTickets h s)) :=
    (sourcesMove_releaseTickets h s).trans (sourcesMove_clearOwedTo h _)
  have hsession : SourcesMove s (releaseSession h (clearOwedTo h (releaseTickets h s))) :=
    htickets.trans (sourcesMove_of_eq (releaseSession_sources _ h))
  have hchecks (l : List Ticket) (u : State)
      (hu : u.sources = (releaseSession h (clearOwedTo h (releaseTickets h s))).sources) :
      SourcesMove s (releaseChecks l u) :=
    (hsession.trans (sourcesMove_of_eq hu)).trans (sourcesMove_releaseChecks l u)
  unfold release
  dsimp only
  refine SourcesMove.recomputeAtn ?_
  split
  · exact (hchecks _ _ (by simp)).trans (sourcesMove_storeFault _ _)
  · exact hchecks _ _ (by simp)

theorem sourceAfterIssue_config (h : HostId) (i : SourceId) (r : Source) :
    (sourceAfterIssue h i r).config = r.config ∧ (sourceAfterIssue h i r).state = r.state := by
  unfold sourceAfterIssue
  split
  · split <;> exact ⟨rfl, rfl⟩
  · exact ⟨rfl, rfl⟩

theorem sourcesMove_issue {h : HostId} {i : SourceId} {k : SlotId} {s : State}
    (harmed : (s.source i).state = .armed) : SourcesMove s (issue h i k s) := by
  obtain ⟨hconfig, hstate⟩ := sourceAfterIssue_config h i (s.source i)
  refine .recomputeAtn (.trans (sourcesMove_of_eq (State.setSlot_sources s k _)) (sourcesMove_armed harmed ?_ hconfig))
  exact hstate.trans harmed

/-! ## Every effect but a commit and a reset -/

theorem sourcesMove_attachedWith (h : HostId) (mask : LaneMask) (s : State) : SourcesMove s (attachedWith h mask s) :=
  (sourcesMove_of_eq (State.setHost_sources s h _)).trans
    (sourcesMove_foldl (f := fun x i => levelCheckFor h i x) (fun x i => sourcesMove_levelCheckFor h i x) allSources _)

theorem sourcesMove_of_takes {i : Instr} {h : HostId} {s v : State} (hv : Takes i h s v) : SourcesMove s v := by
  cases hv with
  | nothing => exact sourcesMove_refl s
  | attach mask _ => exact (sourcesMove_attachedWith h mask s).recomputeAtn
  | detach => exact ((sourcesMove_of_eq (State.setHost_sources s h _)).trans (sourcesMove_clearOwedTo h _)).recomputeAtn
  | setMask => exact sourcesMove_of_eq rfl
  | done k t => exact (sourcesMove_endDone k t s).recomputeAtn
  | defer k t => exact (sourcesMove_endDefer k t s).recomputeAtn
  | extend => exact sourcesMove_of_eq rfl
  | postOne n argument _ harmed =>
    refine .recomputeAtn (sourcesMove_armed harmed ?_ rfl)
    exact harmed
  | postEach n argument _ harmed =>
    refine .recomputeAtn (sourcesMove_armed harmed ?_ rfl)
    exact harmed
  | rearm n => exact ((sourcesMove_setSource (.single .rearmed)).trans (sourcesMove_levelCheck n _)).recomputeAtn
  | faultTake => exact sourcesMove_of_eq rfl
  | editOpen => exact sourcesMove_of_eq rfl
  | editClose => exact sourcesMove_of_eq rfl
  | staged => exact sourcesMove_of_eq rfl
  | dropped => exact sourcesMove_of_eq rfl

theorem answerRequest_sources (h : HostId) (v : State) (a : Answer) :
    (answerRequest h (v, a)).sources = v.sources := by
  rw [answerRequest_frame]

/-- The effect is a commit that applies (R136). -/
def Applies (c : Instr) (s t : State) : Prop :=
  ∃ h, c = .commitCompletion ∧ s.edit.holder = some h ∧ s.edit.commitInFlight = true ∧
    (∀ e ∈ s.edit.staged, isConflict s e = false) ∧ t = completeApply h s

/-- The effect is a device reset (R159). -/
def Resets (c : Instr) (s t : State) : Prop := c = .deviceReset ∧ t = Machine.deviceReset s

/-- A commit that applies and a device reset aside, every command changes the source records by `SourceMove` alone. -/
theorem sourcesMove_of_effect {c : Instr} {s t : State} (ht : Effect c s t) :
    SourcesMove s t ∨ Applies c s t ∨ Resets c s t := by
  cases ht with
  | applied h hc hheld hflight hfree => exact .inr (.inl ⟨h, hc, hheld, hflight, hfree, rfl⟩)
  | deviceReset hc => exact .inr (.inr ⟨hc, rfl⟩)
  | taken i h n v a _ _ _ _ htakes =>
    exact .inl ((sourcesMove_of_takes htakes).trans (sourcesMove_of_eq (answerRequest_sources h v a)))
  | claimRefused h a => exact .inl (sourcesMove_of_eq (answerRequest_sources h _ a))
  | claimIssued h i k a _ _ hi =>
    obtain ⟨harmed, -⟩ := (deliverable_iff s i h).mp hi
    exact .inl
      ((sourcesMove_issue (s := claimOff h s) harmed).trans (sourcesMove_of_eq (answerRequest_sources h _ a)))
  | conflict h p tg => exact .inl (sourcesMove_of_eq (by simp [completeConflict]))
  | idleExpired h =>
    exact .inl ((sourcesMove_of_eq (endSession_sources s h)).trans (sourcesMove_storeFault _ _)).recomputeAtn
  | leaseExpired k t => exact .inl (sourcesMove_endExpired k t s).recomputeAtn
  | released h => exact .inl (sourcesMove_release h s)
  | edge l level => exact .inl (sourcesMove_acceptEdge l level s)
  | _ => exact .inl (sourcesMove_of_eq (by simp))

end Sys2Proof.Proofs
end

section
/-! PROOFS. What the effects leave unchanged: the tables no block touches when it takes a request, a live ticket in its
slot (O19), the configurations, limits and settle times outside a commit (O40), and what another host sees (O54). -/

namespace Sys2Proof.Proofs

open Sys2Proof.Machine Sys2Proof.Stated Sys2Proof.Safety

/-! ## What no block touches -/

/-- From `s` to `t` only sources, hosts, ATN, slots, the edit unit and the fault queue have changed. -/
structure BlockFrame (s t : State) : Prop where
  lines : t.lines = s.lines
  sampled : t.sampled = s.sampled
  lanes : t.lanes = s.lanes
  waiting : t.waiting = s.waiting
  rotation : t.rotation = s.rotation
  ports : t.ports = s.ports
  clock : t.clock = s.clock
  drawn : t.drawn = s.drawn
  pending : t.pending = s.pending

theorem attachedWith_frame (h : HostId) (mask : LaneMask) (s : State) :
    attachedWith h mask s =
      { s.setHost h { s.host h with attached := true, laneMask := mask } with
        sources := (attachedWith h mask s).sources } :=
  foldl_levelCheckFor_frame h allSources _

theorem blockFrame_of_takes {i : Instr} {h : HostId} {s v : State} (hv : Takes i h s v) : BlockFrame s v := by
  cases hv with
  | attach mask =>
    rw [attachedWith_frame]
    constructor <;> simp
  | _ => constructor <;> simp

/-! ## A live ticket in its slot -/

/-- From `s` to `t` every live ticket has stayed as it was, or ended. -/
def TicketsStayOrEnd (s t : State) : Prop :=
  ∀ k tk, (s.slot k).ticket = some tk → (t.slot k).ticket = none ∨ (t.slot k).ticket = some tk

theorem ticketsStayOrEnd_of_eq {s t : State} (h : t.slots = s.slots) : TicketsStayOrEnd s t := fun k tk hk => by
  have hslot : t.slot k = s.slot k := congrArg (fun v => v[k]) h
  exact .inr (hslot ▸ hk)

theorem TicketsStayOrEnd.trans {s u t : State} (h₁ : TicketsStayOrEnd s u) (h₂ : TicketsStayOrEnd u t)
    (hissues : ∀ k, (u.slot k).ticket = none → (t.slot k).ticket = none) : TicketsStayOrEnd s t := fun k tk hk => by
  rcases h₁ k tk hk with hnone | hsome
  · exact .inl (hissues k hnone)
  · exact h₂ k tk hsome

theorem slot_of_slots_eq {s t : State} (h : t.slots = s.slots) (k : SlotId) : t.slot k = s.slot k :=
  congrArg (fun v => v[k]) h

/-- Every end of a ticket frees its slot, and touches no other (R80). -/
theorem endDone_slots (k : SlotId) (t : Ticket) (s : State) : (endDone k t s).slots = (freeSlot k s).slots := by
  unfold endDone
  dsimp only
  split <;> simp

theorem endDefer_slots (k : SlotId) (t : Ticket) (s : State) : (endDefer k t s).slots = (freeSlot k s).slots := by
  unfold endDefer
  dsimp only
  split <;> simp

theorem endExpired_slots (k : SlotId) (t : Ticket) (s : State) : (endExpired k t s).slots = (freeSlot k s).slots := by
  unfold endExpired
  dsimp only
  split <;> simp

theorem endReleased_slots (k : SlotId) (t : Ticket) (s : State) : (endReleased k t s).slots = (freeSlot k s).slots := by
  unfold endReleased
  dsimp only
  split <;> simp

theorem ticketsStayOrEnd_freeSlot {s t : State} {k : SlotId} (h : t.slots = (freeSlot k s).slots) :
    TicketsStayOrEnd s t := fun j tk hj => by
  rw [slot_of_slots_eq h, freeSlot_slot]
  split
  · exact .inl rfl
  · exact .inr hj

/-- R118: a release frees the slots of the released host's tickets, and leaves every other slot as it was. -/
theorem releaseSlot_slot (h : HostId) (k j : SlotId) (s : State) :
    (releaseSlot h k s).slot j =
      if k = j ∧ (s.slot j).ticket.any (fun u => u.host == h) = true then { s.slot j with ticket := none }
      else s.slot j := by
  unfold releaseSlot
  split
  · next t ht =>
    split
    · next hown =>
      rw [slot_of_slots_eq (endReleased_slots k t s), freeSlot_slot]
      by_cases hkj : k = j
      · subst hkj
        simp [ht, hown]
      · simp [hkj]
    · next hother =>
      refine (if_neg fun hc => hother ?_).symm
      obtain ⟨rfl, hany⟩ := hc
      simpa [ht] using hany
  · next hnone =>
    refine (if_neg fun hc => ?_).symm
    obtain ⟨rfl, hany⟩ := hc
    simp [hnone] at hany

theorem foldl_releaseSlot_slot (h : HostId) (l : List SlotId) (s : State) (j : SlotId) :
    (l.foldl (fun x k => releaseSlot h k x) s).slot j =
      if j ∈ l ∧ (s.slot j).ticket.any (fun u => u.host == h) = true then { s.slot j with ticket := none }
      else s.slot j := by
  induction l generalizing s with
  | nil => simp
  | cons k rest ih =>
    rw [List.foldl_cons, ih, releaseSlot_slot]
    by_cases hkj : k = j
    · subst hkj
      by_cases hown : (s.slot k).ticket.any (fun u => u.host == h) = true <;> simp [hown]
    · simp [hkj, Ne.symm hkj]

theorem releaseTickets_slot (h : HostId) (s : State) (j : SlotId) :
    (releaseTickets h s).slot j =
      if (s.slot j).ticket.any (fun u => u.host == h) = true then { s.slot j with ticket := none } else s.slot j := by
  have hmem : j ∈ allSlots := List.mem_finRange j
  rw [releaseTickets, foldl_releaseSlot_slot]
  simp only [hmem, true_and]

theorem release_slots (h : HostId) (s : State) : (release h s).slots = (releaseTickets h s).slots := by
  unfold release
  dsimp only
  split <;> simp

theorem ticketsStayOrEnd_release (h : HostId) (s : State) : TicketsStayOrEnd s (release h s) := fun k tk hk => by
  rw [slot_of_slots_eq (release_slots h s), releaseTickets_slot]
  split
  · exact .inl rfl
  · exact .inr hk

/-- A block that takes a request leaves every live ticket as it was, ends it, or, for EXTEND alone, moves its
deadline. -/
theorem ticket_of_takes {i : Instr} {h : HostId} {s v : State} (hv : Takes i h s v) {k : SlotId} {tk : Ticket}
    (hk : (s.slot k).ticket = some tk) :
    (v.slot k).ticket = none ∨ (v.slot k).ticket = some tk ∨
      ((∃ n, i = .extend h n) ∧ (v.slot k).ticket = some (extendTicket s.now tk)) := by
  have hstays (hs : TicketsStayOrEnd s v) :
      (v.slot k).ticket = none ∨ (v.slot k).ticket = some tk ∨
        ((∃ n, i = .extend h n) ∧ (v.slot k).ticket = some (extendTicket s.now tk)) := by
    rcases hs k tk hk with hnone | hsome
    · exact .inl hnone
    · exact .inr (.inl hsome)
  cases hv with
  | attach mask =>
    refine hstays (ticketsStayOrEnd_of_eq ?_)
    rw [attachedWith_frame]
    simp
  | done j t => exact hstays (ticketsStayOrEnd_freeSlot ((recomputeAtn_slots _).trans (endDone_slots j t s)))
  | defer j t => exact hstays (ticketsStayOrEnd_freeSlot ((recomputeAtn_slots _).trans (endDefer_slots j t s)))
  | extend j t hi hslot =>
    by_cases hjk : j = k
    · subst hjk
      obtain rfl : t = tk := Option.some.inj (hslot.symm.trans hk)
      exact .inr (.inr ⟨hi, by simp⟩)
    · exact .inr (.inl (by rw [State.setSlot_slot_ne _ _ _ _ hjk, hk]))
  | _ => exact .inr (.inl (by simp [hk]))

theorem answerRequest_slot (h : HostId) (v : State) (a : Answer) (k : SlotId) :
    (answerRequest h (v, a)).slot k = v.slot k := by
  rw [answerRequest_frame]
  rfl

/-- What any command can make of a live ticket. -/
theorem ticket_of_effect {c : Instr} {s t : State} (ht : Effect c s t) {k : SlotId} {tk : Ticket}
    (hk : (s.slot k).ticket = some tk) :
    (t.slot k).ticket = none ∨ (t.slot k).ticket = some tk ∨
      (((∃ h n, c = .extend h n) ∨ carriesBytes c) ∧ (t.slot k).ticket = some (extendTicket s.now tk)) := by
  have hstays (hs : TicketsStayOrEnd s t) :
      (t.slot k).ticket = none ∨ (t.slot k).ticket = some tk ∨
        (((∃ h n, c = .extend h n) ∨ carriesBytes c) ∧ (t.slot k).ticket = some (extendTicket s.now tk)) := by
    rcases hs k tk hk with hnone | hsome
    · exact .inl hnone
    · exact .inr (.inl hsome)
  cases ht with
  | taken i h n v a hspells _ _ _ htakes =>
    rw [answerRequest_slot]
    rcases ticket_of_takes htakes hk with hnone | hsome | ⟨⟨n, rfl⟩, hmoved⟩
    · exact .inl hnone
    · exact .inr (.inl hsome)
    · refine .inr (.inr ⟨?_, hmoved⟩)
      rcases hspells with rfl | hbytes
      · exact .inl ⟨h, n, rfl⟩
      · exact .inr hbytes
  | claimRefused h a =>
    rw [answerRequest_slot]
    exact .inr (.inl hk)
  | claimIssued h i j a _ _ _ hfree =>
    have hjk : j ≠ k := fun hjk => by simp [hjk, hk] at hfree
    rw [answerRequest_slot, issue, recomputeAtn_slot, State.setSource_slot, State.setSlot_slot_ne _ _ _ _ hjk]
    exact .inr (.inl hk)
  | conflict h p tg => exact hstays (ticketsStayOrEnd_of_eq (by simp [completeConflict]))
  | applied h => exact hstays (ticketsStayOrEnd_of_eq (by simp [completeApply]))
  | leaseExpired j u => exact hstays (ticketsStayOrEnd_freeSlot ((recomputeAtn_slots _).trans (endExpired_slots j u s)))
  | released h => exact hstays (ticketsStayOrEnd_release h s)
  | deviceReset =>
    refine .inl ?_
    show (State.reset.slot k).ticket = none
    simp [State.reset, State.slot, Slot.reset]
  | _ => exact hstays (ticketsStayOrEnd_of_eq (by simp))

/-- Settles O19: an effect that keeps a live ticket live changes at most the two fields that EXTEND moves. -/
theorem liveTicketsKeepTheirSnapshot : Obligations.LiveTicketsKeepTheirSnapshot := by
  intro s t c k tk ht hk
  rcases ticket_of_effect (effect_of_exec ht) hk with hnone | hsame | ⟨hc, hmoved⟩
  · exact .inl hnone
  · exact .inr ⟨tk, hsame, rfl, .inl rfl⟩
  · refine .inr ⟨_, hmoved, rfl, .inr ?_⟩
    rcases hc with hextend | hrejected | hincomplete
    · exact .inl hextend
    · exact .inr (.inl hrejected)
    · exact .inr (.inr hincomplete)

/-! ## Configurations, limits and settle times -/

/-- A release touches neither lines nor lanes, neither the rotation nor the clocks (R117). -/
theorem release_frame (h : HostId) (s : State) :
    release h s =
      { release h s with
        lines := s.lines, sampled := s.sampled, lanes := s.lanes, rotation := s.rotation, clock := s.clock
        drawn := s.drawn, pending := s.pending } := by
  have hframe :
      (release h s).lines = s.lines ∧ (release h s).sampled = s.sampled ∧ (release h s).lanes = s.lanes ∧
      (release h s).rotation = s.rotation ∧ (release h s).clock = s.clock ∧ (release h s).drawn = s.drawn ∧
      (release h s).pending = s.pending := by
    unfold release
    dsimp only
    split <;> simp
  obtain ⟨hlines, hsampled, hlanes, hrotation, hclock, hdrawn, hpending⟩ := hframe
  rw [← hlines, ← hsampled, ← hlanes, ← hrotation, ← hclock, ← hdrawn, ← hpending]

theorem lanes_of_effect {c : Instr} {s t : State} (ht : Effect c s t) :
    t.lanes = s.lanes ∨ Applies c s t ∨ Resets c s t := by
  cases ht with
  | applied h hc hheld hflight hfree => exact .inr (.inl ⟨h, hc, hheld, hflight, hfree, rfl⟩)
  | deviceReset hc => exact .inr (.inr ⟨hc, rfl⟩)
  | taken i h n v a _ _ _ _ htakes =>
    rw [answerRequest_frame]
    exact .inl (blockFrame_of_takes htakes).lanes
  | claimRefused h a => rw [answerRequest_frame]; exact .inl rfl
  | claimIssued h i k a => rw [answerRequest_frame]; exact .inl (issue_lanes _ h i k)
  | conflict h p tg => exact .inl (by simp [completeConflict])
  | released h => rw [release_frame]; exact .inl rfl
  | _ => exact .inl (by simp)

/-- From `s` to `t` every line has kept its settle_us. -/
def SettleTimesStay (s t : State) : Prop := ∀ l, (t.line l).settleUs = (s.line l).settleUs

theorem settleTimesStay_of_eq {s t : State} (h : t.lines = s.lines) : SettleTimesStay s t := fun l => by
  have hl : t.line l = s.line l := congrArg (fun v => v[l]) h
  rw [hl]

theorem settleTimesStay_setLine (s : State) (l : LineId) {r : Line} (h : r.settleUs = (s.line l).settleUs) :
    SettleTimesStay s (s.setLine l r) := fun j => by
  rw [State.setLine_line]
  split
  · next hlj => rw [h, hlj]
  · rfl

theorem acceptEdge_lines (l : LineId) (level : Bool) (s : State) :
    (acceptEdge l level s).lines =
      (s.setLine l { s.line l with rawLevel := level, acceptedLevel := level, settleDeadline := none }).lines := by
  simp only [acceptEdge, recomputeAtn_lines, reportEdge_lines]

/-- A block of commands that leaves the lines and the clocks alone. -/
theorem time_of_takenRequest {i : Instr} {h x : HostId} {s v : State} {p : Port} {a : Answer}
    (hv : Takes i h (s.setPort x p) v) :
    (answerRequest h (v, a)).lines = s.lines ∧ (answerRequest h (v, a)).sampled = s.sampled ∧
      (answerRequest h (v, a)).clock = s.clock := by
  obtain ⟨hlines, hsampled, -, -, -, -, hclock, -, -⟩ := blockFrame_of_takes hv
  rw [answerRequest_frame]
  exact ⟨hlines, hsampled, hclock⟩

theorem settleTimesStay_of_effect {c : Instr} {s t : State} (ht : Effect c s t) :
    SettleTimesStay s t ∨ Applies c s t ∨ Resets c s t := by
  cases ht with
  | applied h hc hheld hflight hfree => exact .inr (.inl ⟨h, hc, hheld, hflight, hfree, rfl⟩)
  | deviceReset hc => exact .inr (.inr ⟨hc, rfl⟩)
  | taken i h n v a _ _ _ _ htakes => exact .inl (settleTimesStay_of_eq (time_of_takenRequest htakes).1)
  | claimRefused h a => exact .inl (settleTimesStay_of_eq (by rw [answerRequest_frame]; rfl))
  | claimIssued h i k a =>
    exact .inl (settleTimesStay_of_eq (by rw [answerRequest_frame]; exact issue_lines _ h i k))
  | conflict h p tg => exact .inl (settleTimesStay_of_eq (by simp [completeConflict]))
  | released h => exact .inl (settleTimesStay_of_eq (by rw [release_frame]))
  | resetEnded found => exact .inl fun l => by simp [endReset, Line.firstSample]
  | settling l level deadline => exact .inl (settleTimesStay_setLine s l rfl)
  | edge l level =>
    refine .inl fun j => (settleTimesStay_of_eq (acceptEdge_lines l level s) j).trans ?_
    exact settleTimesStay_setLine s l
      (r := { s.line l with rawLevel := level, acceptedLevel := level, settleDeadline := none }) rfl j
  | _ => exact .inl (settleTimesStay_of_eq (by simp))

/-- Settles O40: no move of a source record changes its configuration, and only a commit and a reset write limits and
settle times. -/
theorem configurationChangesAtCommitsAlone : Obligations.ConfigurationChangesAtCommitsAlone := by
  intro s t c ht hcommit hreset
  have heffect := effect_of_exec ht
  have hother {P : Prop} (hP : P ∨ Applies c s t ∨ Resets c s t) : P := by
    rcases hP with hP | ⟨_, hc, _⟩ | ⟨hc, _⟩
    · exact hP
    · exact absurd hc hcommit
    · exact absurd hc hreset
  exact ⟨fun i => moves_config (hother (sourcesMove_of_effect heffect) i),
    fun k => congrArg (fun v => v[k]) (hother (lanes_of_effect heffect)), hother (settleTimesStay_of_effect heffect)⟩

/-! ## What another host sees -/

/-- From `s` to `t` the port, the waiting claim and the record of every host but `h` are as they were. -/
def OthersKept (h : HostId) (s t : State) : Prop :=
  ∀ x, x ≠ h → t.port x = s.port x ∧ t.waitingClaim x = s.waitingClaim x ∧ t.host x = s.host x

theorem OthersKept.trans {h : HostId} {s u t : State} (h₁ : OthersKept h s u) (h₂ : OthersKept h u t) :
    OthersKept h s t := fun x hx => by
  obtain ⟨hport, hwaiting, hhost⟩ := h₁ x hx
  obtain ⟨hport', hwaiting', hhost'⟩ := h₂ x hx
  exact ⟨hport'.trans hport, hwaiting'.trans hwaiting, hhost'.trans hhost⟩

theorem othersKept_of_eq {h : HostId} {s t : State} (hports : t.ports = s.ports) (hwaiting : t.waiting = s.waiting)
    (hhosts : t.hosts = s.hosts) : OthersKept h s t := fun x _ =>
  ⟨congrArg (fun v => v[x]) hports, congrArg (fun v => v[x]) hwaiting, congrArg (fun v => v[x]) hhosts⟩

theorem othersKept_setPort (h : HostId) (s : State) (p : Port) : OthersKept h s (s.setPort h p) := fun x hx =>
  ⟨State.setPort_port_ne s h p x hx.symm, rfl, rfl⟩

theorem othersKept_setHost (h : HostId) (s : State) (r : HostRec) : OthersKept h s (s.setHost h r) := fun x hx =>
  ⟨rfl, rfl, State.setHost_host_ne s h r x hx.symm⟩

theorem othersKept_setWaiting (h : HostId) (s : State) (choice : Option Byte) :
    OthersKept h s (s.setWaiting h choice) := fun x hx =>
  ⟨rfl, State.setWaiting_waitingClaim_ne s h choice x hx.symm, rfl⟩

theorem othersKept_formAnswer (h : HostId) (a : Answer) (s : State) : OthersKept h s (formAnswer h a s) :=
  othersKept_setPort h s _

theorem othersKept_answerRequest (h : HostId) (v : State) (a : Answer) : OthersKept h v (answerRequest h (v, a)) :=
  .trans (othersKept_of_eq (touchIdle_ports v h) (touchIdle_waiting v h) (touchIdle_hosts v h))
    (othersKept_formAnswer h a (touchIdle h v))

theorem othersKept_setEditState (h : HostId) (es : EditState) (s : State) : OthersKept h s (setEditState h es s) :=
  othersKept_setHost h s _

theorem othersKept_of_takes {i : Instr} {h : HostId} {s v : State} (hv : Takes i h s v) : OthersKept h s v := by
  obtain ⟨-, -, -, hwaiting, -, hports, -, -, -⟩ := blockFrame_of_takes hv
  have hhost (r : HostRec) (hhosts : v.hosts = (s.setHost h r).hosts) : OthersKept h s v :=
    (othersKept_setHost h s r).trans (othersKept_of_eq hports hwaiting hhosts)
  cases hv with
  | attach mask =>
    refine hhost { s.host h with attached := true, laneMask := mask } ?_
    rw [attachedWith_frame]
    simp
  | detach => exact hhost { s.host h with attached := false, laneMask := 0 } (by simp)
  | setMask mask => exact hhost { s.host h with laneMask := mask } (by simp)
  | editOpen => exact hhost { s.host h with editState := .session } rfl
  | editClose => exact hhost { s.host h with editState := .none } rfl
  | _ => exact othersKept_of_eq hports hwaiting (by simp)

theorem release_port (h : HostId) (s : State) (x : HostId) :
    (release h s).port x = (s.setPort h (s.port h).goDown).port x := by
  unfold release
  dsimp only
  split <;> simp [State.setPort_port]

theorem release_waitingClaim (h : HostId) (s : State) (x : HostId) :
    (release h s).waitingClaim x = (s.setWaiting h none).waitingClaim x := by
  unfold release
  dsimp only
  split <;> simp [State.setWaiting_waitingClaim]

theorem release_host (h : HostId) (s : State) (x : HostId) :
    (release h s).host x = (s.setHost h HostRec.reset).host x := by
  unfold release
  dsimp only
  split <;> simp [State.setHost_host]

/-- R117: a release touches the released host's record, claim and port, and no other host's. -/
theorem othersKept_release (h : HostId) (s : State) : OthersKept h s (release h s) := fun x hx =>
  ⟨(release_port h s x).trans (State.setPort_port_ne s h _ x hx.symm),
    (release_waitingClaim h s x).trans (State.setWaiting_waitingClaim_ne s h _ x hx.symm),
    (release_host h s x).trans (State.setHost_host_ne s h _ x hx.symm)⟩

theorem othersKept_of_effect {c : Instr} {h : HostId} {s t : State} (ht : Effect c s t) (hc : portOf c = some h) :
    OthersKept h s t := by
  have hnone {P : Prop} (hport : portOf c = none) : P := absurd (hc.symm.trans hport) (Option.some_ne_none h)
  have hcommit {P : Prop} (heq : c = .commitCompletion ∨ c = .deviceReset) : P := by
    rcases heq with rfl | rfl <;> exact hnone rfl
  cases ht with
  | nothing => exact othersKept_of_eq rfl rfl rfl
  | ignored x hport =>
    cases hport.symm.trans hc
    exact othersKept_setPort h s _
  | window x p n hport =>
    cases hport.symm.trans hc
    exact othersKept_setPort h s p
  | taken i x n v a _ hport _ _ htakes =>
    cases hport.symm.trans hc
    exact (othersKept_setPort h s _).trans ((othersKept_of_takes htakes).trans (othersKept_answerRequest h v a))
  | claim x n choice hport =>
    cases hport.symm.trans hc
    exact (othersKept_setPort h s _).trans (othersKept_setWaiting h _ _)
  | commitBegun x n hport =>
    cases hport.symm.trans hc
    exact (othersKept_setPort h s _).trans (othersKept_setEditState h .commit _)
  | claimRefused _ _ hport => exact hnone hport
  | claimIssued _ _ _ _ hport => exact hnone hport
  | conflict _ _ _ heq => exact hcommit (.inl heq)
  | applied _ heq => exact hcommit (.inl heq)
  | idleExpired _ hport => exact hnone hport
  | leaseExpired _ _ hport => exact hnone hport
  | released x hport =>
    cases hport.symm.trans hc
    exact othersKept_release h s
  | deasserted x o hport =>
    cases hport.symm.trans hc
    exact othersKept_setPort h s _
  | deviceReset heq => exact hcommit (.inr heq)
  | resetEnded _ hport => exact hnone hport
  | settling _ _ _ hport => exact hnone hport
  | edge _ _ hport => exact hnone hport

/-- Settles O54: the commands named are those with a port, and the effects of such a command touch that port's host
alone. -/
theorem portsDoNotReachOneAnother : Obligations.PortsDoNotReachOneAnother := by
  intro s t c h ht hc
  have hport : portOf c = some h := by
    rcases hc with ⟨_, _, hparts⟩ | ⟨bytes, e, rfl⟩ | ⟨window, e, rfl⟩ | ⟨n, rfl⟩ | ⟨n, rfl⟩ | rfl | ⟨o, rfl⟩
    · exact portOf_of_requestParts hparts
    all_goals rfl
  exact othersKept_of_effect (effect_of_exec ht) hport

end Sys2Proof.Proofs
end

section
/-! PROOFS. What a step can do, and two invariants of it: the fault queue's order (R140, R142), and sources in OFF or
FAULTED (R5, R7, R8, R92). -/

namespace Sys2Proof.Proofs

open Sys2Proof.Machine Sys2Proof.Stated Sys2Proof.Safety

/-! ## A step -/

/-- A step is a microsecond, or the effect of the command at the front on the state with the queue's rest. -/
theorem step_cases {s t : State} (ht : step s = .next t) :
    (s.pending = [] ∧ t = tick s) ∨ ∃ c rest, s.pending = c :: rest ∧ Effect c (s.setPending rest) t := by
  unfold step at ht
  split at ht
  · next hempty =>
    cases ht
    exact .inl ⟨hempty, rfl⟩
  · next c rest hfront => exact .inr ⟨c, rest, hfront, effect_of_exec ht⟩

/-- What the queue does not matter to, a microsecond keeps and every effect keeps, every step keeps. -/
theorem kept_of_step {P : State → Prop} (hpending : ∀ s q, P s → P (s.setPending q)) (htick : ∀ s, P s → P (tick s))
    (heffect : ∀ c s t, Effect c s t → P s → P t) {s t : State} (hs : P s) (ht : step s = .next t) : P t := by
  rcases step_cases ht with ⟨_, rfl⟩ | ⟨c, rest, _, hc⟩
  · exact htick s hs
  · exact heffect c _ t hc (hpending s rest hs)

/-- A microsecond changes the clocks, the queue and the count of free values alone. -/
theorem tick_frame (s : State) :
    tick s = { s with clock := (tick s).clock, pending := (tick s).pending, drawn := (tick s).drawn } := by
  unfold tick
  split <;> rfl

/-! ## The fault queue -/

/-- R142: the run of seq values goes on with the record that a store appends. -/
theorem seqRun_concat {l : List FaultRecord} {r : FaultRecord} (hl : seqRun l r.seq) (hr : r.seq ≠ 0) :
    seqRun (l ++ [r]) (advanceSeq r.seq) := by
  induction l with
  | nil => exact ⟨hr, rfl⟩
  | cons a rest ih =>
    cases rest with
    | nil => exact ⟨hl.1, hl.2, hr, rfl⟩
    | cons b rest =>
      obtain ⟨ha, hab, hrest⟩ := hl
      exact ⟨ha, hab, ih hrest⟩

theorem seqRun_tail {r : FaultRecord} {rest : List FaultRecord} {next : Word} (h : seqRun (r :: rest) next) :
    seqRun rest next := by
  cases rest with
  | nil => trivial
  | cons q rest => exact h.2.2

theorem seqRun_drop_one {l : List FaultRecord} {next : Word} (h : seqRun l next) : seqRun (l.drop 1) next := by
  cases l with
  | nil => exact h
  | cons r rest => exact seqRun_tail h

theorem faultsKept_of_eq {s t : State} (h : t.faults = s.faults) (hs : FaultsKept s) : FaultsKept t := by
  unfold FaultsKept
  rwa [h]

/-- R142: a store keeps the queue in order. -/
theorem faultsKept_storeFault (cause : FaultCause) {s : State} (hs : FaultsKept s) :
    FaultsKept (storeFault cause s) := by
  obtain ⟨hlength, hnext, hrun⟩ := hs
  rw [FaultsKept, storeFault_faults]
  refine ⟨store_length hlength _ _, advanceSeq_ne_zero _, ?_⟩
  unfold FaultQueue.store
  dsimp only
  split
  · exact seqRun_concat (seqRun_drop_one hrun) hnext
  · exact seqRun_concat hrun hnext

theorem faultsKept_storeOverflows (l : List SourceId) {s : State} (hs : FaultsKept s) :
    FaultsKept (storeOverflows l s) := by
  induction l generalizing s with
  | nil => exact hs
  | cons i rest ih => exact ih (faultsKept_storeFault _ hs)

theorem faultsKept_acceptEdge (l : LineId) (level : Bool) {s : State} (hs : FaultsKept s) :
    FaultsKept (acceptEdge l level s) := by
  refine faultsKept_of_eq (recomputeAtn_faults _) ?_
  unfold reportEdge
  dsimp only
  exact faultsKept_storeOverflows _ (faultsKept_of_eq (by simp) hs)

theorem faultsKept_expireArmed (t : Ticket) {s : State} (hs : FaultsKept s) : FaultsKept (expireArmed t s) := by
  unfold expireArmed
  dsimp only
  split_ifs
  · exact faultsKept_storeFault _ (faultsKept_of_eq (State.setSource_faults ..) hs)
  · exact faultsKept_of_eq (by simp) hs
  · exact faultsKept_of_eq (by simp) hs

theorem faultsKept_endExpired (k : SlotId) (t : Ticket) {s : State} (hs : FaultsKept s) :
    FaultsKept (endExpired k t s) := by
  unfold endExpired
  dsimp only
  split
  · exact faultsKept_expireArmed t (faultsKept_of_eq (freeSlot_faults s k) hs)
  · exact faultsKept_of_eq (by simp) hs

theorem faultsKept_release (h : HostId) {s : State} (hs : FaultsKept s) : FaultsKept (release h s) := by
  unfold release
  dsimp only
  refine faultsKept_of_eq (recomputeAtn_faults _) ?_
  split
  · exact faultsKept_storeFault _ (faultsKept_of_eq (by simp) hs)
  · exact faultsKept_of_eq (by simp) hs

theorem faultsKept_of_takes {i : Instr} {h : HostId} {s v : State} (hv : Takes i h s v) (hs : FaultsKept s) :
    FaultsKept v := by
  cases hv with
  | faultTake r rest hrecords =>
    obtain ⟨hlength, hnext, hrun⟩ := hs
    rw [hrecords] at hlength hrun
    exact ⟨Nat.le_of_succ_le hlength, hnext, seqRun_tail hrun⟩
  | attach mask => exact faultsKept_of_eq (by rw [attachedWith_frame]; simp) hs
  | done k t => exact faultsKept_of_eq (by simp) hs
  | _ => exact faultsKept_of_eq (by simp) hs

theorem answerRequest_faults (h : HostId) (v : State) (a : Answer) : (answerRequest h (v, a)).faults = v.faults := by
  rw [answerRequest_frame]

theorem faultsKept_of_effect {c : Instr} {s t : State} (ht : Effect c s t) (hs : FaultsKept s) : FaultsKept t := by
  cases ht with
  | taken i h n v a _ _ _ _ htakes =>
    exact faultsKept_of_eq (answerRequest_faults h v a) (faultsKept_of_takes htakes hs)
  | claimRefused h a => exact faultsKept_of_eq (answerRequest_faults h _ a) hs
  | claimIssued h i k a =>
    exact faultsKept_of_eq ((answerRequest_faults h _ a).trans (issue_faults _ h i k)) hs
  | conflict h p tg => exact faultsKept_of_eq (by simp [completeConflict]) hs
  | applied h => exact faultsKept_of_eq (by simp [completeApply]) hs
  | idleExpired h =>
    exact faultsKept_of_eq (recomputeAtn_faults _)
      (faultsKept_storeFault _ (faultsKept_of_eq (endSession_faults s h) hs))
  | leaseExpired k tk => exact faultsKept_of_eq (recomputeAtn_faults _) (faultsKept_endExpired k tk hs)
  | released h => exact faultsKept_release h hs
  | deviceReset => exact ⟨Nat.zero_le 16, by simp [deviceReset, State.reset, FaultQueue.reset], trivial⟩
  | edge l level => exact faultsKept_acceptEdge l level hs
  | _ => exact faultsKept_of_eq (by simp) hs

theorem faultsKept_of_step {s t : State} (hs : FaultsKept s) (ht : step s = .next t) : FaultsKept t :=
  kept_of_step (P := FaultsKept) (fun _ _ h => h) (fun s h => faultsKept_of_eq (by rw [tick_frame]) h)
    (fun _ _ _ => faultsKept_of_effect) hs ht

/-! ## What a commit makes of a source record -/

/-- The record of a committed source with its new configuration, before its runtime change (R9, R137). -/
abbrev withConfig (c : SourceConfig) (r : Source) : Source :=
  { r with config := c, mailbox := if changesMode r c then 0 else r.mailbox }

/-- R137's table: a source enters ARMED or is cleared, keeps its runtime fields, stays in OFF, or is disabled. -/
theorem commitSource_cases (s : State) (i : SourceId) (c : SourceConfig) (r : Source) :
    (c.enabled = true ∧ commitSource s i c r = clearRuntime s i (withConfig c r)) ∨
    (c.enabled = true ∧ r.state = .armed ∧ c.mode = r.config.mode ∧ edgeToLevel i r.config c = false ∧
      commitSource s i c r = keepRuntime (withConfig c r)) ∨
    (c.enabled = false ∧ r.state = .off ∧ commitSource s i c r = withConfig c r) ∨
    (c.enabled = false ∧ r.state ≠ .off ∧ commitSource s i c r = disableRuntime (withConfig c r)) := by
  unfold commitSource
  dsimp only
  split
  · next hclears =>
    simp only [clearsRuntime, Bool.and_eq_true] at hclears
    exact .inl ⟨hclears.1, rfl⟩
  · next hkeeps =>
    split
    · next henabled =>
      simp only [clearsRuntime, henabled, changesMode, Bool.true_and, Bool.not_eq_true, Bool.or_eq_false_iff,
        bne_eq_false_iff_eq] at hkeeps
      obtain ⟨⟨harmed, hmode⟩, hedge⟩ := hkeeps
      exact .inr (.inl ⟨henabled, harmed, hmode, hedge, rfl⟩)
    · next hdisabled =>
      have hdisabled : c.enabled = false := by simpa using hdisabled
      split
      · next hoff => exact .inr (.inr (.inl ⟨hdisabled, hoff, rfl⟩))
      · next hon => exact .inr (.inr (.inr ⟨hdisabled, hon, rfl⟩))

/-- R7, R8: the markers of a source that has dropped its waiting work. -/
theorem markerOf_dropWaiting (r : Source) (h : HostId) : (dropWaiting r).markerOf h = (r.markerOf h).dropOwed :=
  markerOf_mapMarkers r (fun _ m => m.dropOwed) h

theorem dropOwed_clear_or_held (m : Marker) : m.dropOwed = .clear ∨ m.dropOwed = .held := by
  cases m <;> simp [Marker.dropOwed]

theorem disableRuntime_markerOf (r : Source) (h : HostId) :
    (disableRuntime r).markerOf h = (r.markerOf h).dropOwed :=
  markerOf_dropWaiting r h

theorem disableRuntime_attemptsOf (r : Source) (h : HostId) : (disableRuntime r).attemptsOf h = 0 :=
  attemptsOf_clearAttempts (dropWaiting r) h

/-! ## Sources in OFF or FAULTED -/

/-- An ARMED record meets the invariant whatever it holds. -/
theorem stateKept_of_armed {i : SourceId} {r : Source} (h : r.state = .armed) : StateKept i r := by
  refine ⟨fun hother => absurd h hother, fun hoff => ?_, fun _ hfaulted => ?_⟩
  · rw [h] at hoff
    cases hoff
  · rw [h] at hfaulted
    cases hfaulted

theorem stateKept_of_move {i : SourceId} {r r' : Source} (hr : StateKept i r) (hmove : SourceMove i r r') :
    StateKept i r' := by
  cases hmove with
  | inService r' harmed hstays => exact stateKept_of_armed hstays
  | cleared h =>
    obtain ⟨hidle, hoff, hnotice⟩ := hr
    refine ⟨fun hother => ?_, hoff, hnotice⟩
    obtain ⟨hpending, hmark, hqueue, hmarkers⟩ := hidle hother
    refine ⟨hpending, hmark, hqueue, fun x => ?_⟩
    rw [markerOf_setMarker]
    split
    · exact .inl rfl
    · exact hmarkers x
  | abandoned r' hi =>
    refine ⟨fun _ => ⟨rfl, rfl, rfl, fun x => ?_⟩, fun hoff => ?_, fun hnotice => absurd hnotice hi⟩
    · have hmarker : (faultRuntime r').markerOf x = (r'.markerOf x).dropOwed := markerOf_dropWaiting r' x
      rw [hmarker]
      exact dropOwed_clear_or_held _
    · cases hoff
  | rearmed => exact stateKept_of_armed rfl

theorem stateKept_of_moves {i : SourceId} {r r' : Source} (hr : StateKept i r) (hmoves : Moves i r r') :
    StateKept i r' := by
  induction hmoves with
  | refl => exact hr
  | tail _ hmove ih => exact stateKept_of_move ih hmove

theorem stateKept_commitSource {s : State} {i : SourceId} {c : SourceConfig} {r : Source} (hr : StateKept i r) :
    StateKept i (commitSource s i c r) := by
  rcases commitSource_cases s i c r with ⟨_, heq⟩ | ⟨_, harmed, _, _, heq⟩ | ⟨_, _, heq⟩ | ⟨_, _, heq⟩
  · rw [heq]
    exact stateKept_of_armed rfl
  · rw [heq]
    exact stateKept_of_armed harmed
  · rw [heq]
    exact hr
  · rw [heq]
    refine ⟨fun _ => ⟨rfl, rfl, rfl, fun x => ?_⟩, fun _ => ⟨rfl, disableRuntime_attemptsOf _⟩, fun _ hfaulted => ?_⟩
    · rw [disableRuntime_markerOf]
      exact dropOwed_clear_or_held _
    · cases hfaulted

/-- Every source record meets the invariant. -/
def StatesKept (s : State) : Prop := ∀ i : SourceId, StateKept i (s.source i)

theorem statesKept_of_move {s t : State} (h : SourcesMove s t) (hs : StatesKept s) : StatesKept t := fun i =>
  stateKept_of_moves (hs i) (h i)

theorem statesKept_applyEntry {s : State} (e : StagedEntry) (hs : StatesKept s) : StatesKept (applyEntry s e) := by
  cases e with
  | source i c =>
    intro j
    rw [applyEntry, State.setSource_source]
    split
    · next hij => exact hij ▸ stateKept_commitSource (hs i)
    · exact hs j
  | lane k limit => exact hs
  | line l us => exact hs

theorem statesKept_foldl_applyEntry {s : State} (l : List StagedEntry) (hs : StatesKept s) :
    StatesKept (l.foldl applyEntry s) := by
  induction l generalizing s with
  | nil => exact hs
  | cons e rest ih => exact ih (statesKept_applyEntry e hs)

theorem statesKept_applyAll {s : State} (l : List StagedEntry) (hs : StatesKept s) : StatesKept (applyAll l s) :=
  statesKept_of_move
    (sourcesMove_foldl (f := fun x i => levelCheck i x) (fun x i => sourcesMove_levelCheck i x) _ _)
    (statesKept_foldl_applyEntry l hs)

theorem stateKept_reset (i : SourceId) : StateKept i Source.reset := by
  refine ⟨fun _ => ⟨rfl, rfl, rfl, fun x => .inl ?_⟩, fun _ => ⟨rfl, fun x => ?_⟩, fun _ hfaulted => ?_⟩
  · simp [Source.reset, Source.markerOf]
  · simp [Source.reset, Source.attemptsOf]
  · cases hfaulted

theorem deviceReset_source (s : State) (i : SourceId) : (deviceReset s).source i = Source.reset := by
  show (Vector.replicate 64 Source.reset)[i.val] = _
  simp

theorem completeApply_sources (h : HostId) (s : State) :
    (completeApply h s).sources = (applyAll s.edit.staged s).sources := by
  simp [completeApply]

theorem statesKept_of_effect {c : Instr} {s t : State} (ht : Effect c s t) (hs : StatesKept s) : StatesKept t := by
  rcases sourcesMove_of_effect ht with hmoves | ⟨h, _, _, _, _, rfl⟩ | ⟨_, rfl⟩
  · exact statesKept_of_move hmoves hs
  · exact statesKept_of_move (sourcesMove_of_eq (completeApply_sources h s)) (statesKept_applyAll s.edit.staged hs)
  · exact fun i => (deviceReset_source s i).symm ▸ stateKept_reset i

theorem statesKept_of_step {s t : State} (hs : StatesKept s) (ht : step s = .next t) : StatesKept t :=
  kept_of_step (P := StatesKept) (fun _ _ h => h)
    (fun s h => statesKept_of_move (sourcesMove_of_eq (by rw [tick_frame])) h)
    (fun _ _ _ => statesKept_of_effect) hs ht

/-- Settles O57: the queue changes by stores and by FAULT_TAKE, the records by moves, commits and the reset. -/
theorem faultQueueAndIdleSourcesStayInOrder : Obligations.FaultQueueAndIdleSourcesStayInOrder :=
  ⟨fun _ _ => faultsKept_of_step, fun _ _ => statesKept_of_step⟩

end Sys2Proof.Proofs
end

section
/-! PROOFS. The ranges of limits, settle times and line deadlines, the two clocks (R25, R26, R39, R157), and what holds
while a reset lasts (R159). -/

namespace Sys2Proof.Proofs

open Sys2Proof.Machine Sys2Proof.Stated Sys2Proof.Safety

/-! ## Credit limits -/

theorem limitsKept_of_eq {s t : State} (h : t.lanes = s.lanes) (hs : LimitsKept s) : LimitsKept t := fun k => by
  have hk : t.creditLimit k = s.creditLimit k := congrArg (fun v => v[k]) h
  rw [hk]
  exact hs k

theorem limitsKept_applyEntry {s : State} {e : StagedEntry} (he : StagedEntry.Valid e) (hs : LimitsKept s) :
    LimitsKept (applyEntry s e) := by
  cases e with
  | source i c => exact hs
  | line l us => exact hs
  | lane k limit =>
    have hvalid : validCredit limit = true := he
    simp only [validCredit, Bool.and_eq_true, decide_eq_true_eq] at hvalid
    intro j
    rw [applyEntry, State.setCreditLimit_creditLimit]
    split
    · exact hvalid
    · exact hs j

/-- What every valid entry keeps, a list of valid entries keeps. -/
theorem foldl_applyEntry_keeps {P : State → Prop} {l : List StagedEntry} (hl : ∀ e ∈ l, StagedEntry.Valid e)
    (hkeeps : ∀ s e, StagedEntry.Valid e → P s → P (applyEntry s e)) {s : State} (hs : P s) :
    P (l.foldl applyEntry s) := by
  induction l generalizing s with
  | nil => exact hs
  | cons e rest ih =>
    obtain ⟨he, hrest⟩ := List.forall_mem_cons.mp hl
    exact ih hrest (hkeeps s e he hs)

theorem foldl_levelCheck_frame (l : List SourceId) (s : State) :
    l.foldl (fun x i => levelCheck i x) s = { s with sources := (l.foldl (fun x i => levelCheck i x) s).sources } := by
  induction l generalizing s with
  | nil => rfl
  | cons i rest ih => rw [List.foldl_cons, ih, levelCheck_frame]

/-- The level checks after a commit touch sources alone (R136). -/
theorem applyAll_frame (l : List StagedEntry) (s : State) :
    applyAll l s = { l.foldl applyEntry s with sources := (applyAll l s).sources } :=
  foldl_levelCheck_frame _ _

theorem completeApply_lanes (h : HostId) (s : State) :
    (completeApply h s).lanes = (s.edit.staged.foldl applyEntry s).lanes := by
  simp only [completeApply, formAnswer_lanes, recomputeAtn_lanes, endSession_lanes]
  rw [applyAll_frame]

theorem staged_valid {s : State} (h : EditKept s) : ∀ e ∈ s.edit.staged, StagedEntry.Valid e := by
  obtain ⟨-, -, -, -, -, hvalid, -, -⟩ := h
  exact hvalid

theorem limitsKept_deviceReset (s : State) : LimitsKept (deviceReset s) := fun k => by
  have hk : (deviceReset s).creditLimit k = 1 := by
    show (Vector.replicate 8 1)[k.val] = 1
    simp
  rw [hk]
  decide

theorem limitsKept_of_effect {c : Instr} {s t : State} (ht : Effect c s t) (hedit : EditKept s) (hs : LimitsKept s) :
    LimitsKept t := by
  rcases lanes_of_effect ht with heq | ⟨h, _, _, _, _, rfl⟩ | ⟨_, rfl⟩
  · exact limitsKept_of_eq heq hs
  · exact limitsKept_of_eq (completeApply_lanes h s)
      (foldl_applyEntry_keeps (staged_valid hedit) (fun _ _ => limitsKept_applyEntry) hs)
  · exact limitsKept_deviceReset s

/-! ## Lines -/

/-- What `LineKept` reads of the state besides the line. -/
theorem linesKept_of_eq {s t : State} (hlines : t.lines = s.lines) (hsampled : t.sampled = s.sampled)
    (hclock : t.clock = s.clock) (hs : LinesKept s) : LinesKept t := fun l => by
  have hl : t.line l = s.line l := congrArg (fun v => v[l]) hlines
  rw [hl, LineKept, hclock, hsampled]
  exact hs l

theorem linesKept_setLine {s : State} {l : LineId} {r : Line} (hr : LineKept s r) (hs : LinesKept s) :
    LinesKept (s.setLine l r) := fun j => by
  rw [State.setLine_line]
  split
  · exact hr
  · exact hs j

theorem linesKept_applyEntry {s : State} {e : StagedEntry} (he : StagedEntry.Valid e) (hs : LinesKept s) :
    LinesKept (applyEntry s e) := by
  cases e with
  | source i c => exact hs
  | lane k limit => exact hs
  | line l us =>
    have hvalid : validSettle us = true := he
    simp only [validSettle, Bool.and_eq_true, decide_eq_true_eq, beq_iff_eq] at hvalid
    obtain ⟨hsettling, hdeadline, -, -, hfirst⟩ := hs l
    exact linesKept_setLine ⟨hsettling, hdeadline, hvalid.1, hvalid.2, hfirst⟩ hs

theorem foldl_applyEntry_time (l : List StagedEntry) (s : State) :
    (l.foldl applyEntry s).sampled = s.sampled ∧ (l.foldl applyEntry s).clock = s.clock := by
  induction l generalizing s with
  | nil => exact ⟨rfl, rfl⟩
  | cons e rest ih =>
    obtain ⟨hsampled, hclock⟩ := ih (applyEntry s e)
    exact ⟨hsampled.trans (applyEntry_sampled s e), hclock.trans (applyEntry_clock s e)⟩

theorem completeApply_lines (h : HostId) (s : State) :
    (completeApply h s).lines = (s.edit.staged.foldl applyEntry s).lines := by
  simp only [completeApply, formAnswer_lines, recomputeAtn_lines, endSession_lines]
  rw [applyAll_frame]

/-- An accepted edge leaves its line steady at the level reported (R30, R31). -/
theorem linesKept_acceptEdge {s : State} (l : LineId) (level : Bool) (hs : LinesKept s) :
    LinesKept (acceptEdge l level s) := by
  obtain ⟨-, -, hmax, hstep, -⟩ := hs l
  refine linesKept_of_eq (acceptEdge_lines l level s) (acceptEdge_sampled s l level) (acceptEdge_clock s l level)
    (linesKept_setLine ⟨?_, ?_, hmax, hstep, fun _ => rfl⟩ hs)
  · simp [Line.settling]
  · simp

/-- A raw change begins settling at a deadline at most 1020 microseconds ahead, or cancels it (R28, R29). -/
theorem linesKept_settling {s : State} {l : LineId} {level : Bool} {deadline : Option Nat} (hsampled : s.sampled = true)
    (hlevel : (s.line l).rawLevel ≠ level)
    (hdeadline :
      (deadline = none ∧ (s.line l).settleDeadline ≠ none) ∨
        (deadline = some (s.clock.us + (s.line l).settleUs) ∧ (s.line l).settleDeadline = none))
    (hs : LinesKept s) :
    LinesKept (s.setLine l { s.line l with rawLevel := level, settleDeadline := deadline }) := by
  obtain ⟨hsettling, -, hmax, hstep, -⟩ := hs l
  have hflip : (level != (s.line l).acceptedLevel) = !((s.line l).rawLevel != (s.line l).acceptedLevel) := by
    revert hlevel
    cases (s.line l).rawLevel <;> cases level <;> cases (s.line l).acceptedLevel <;> decide
  refine linesKept_setLine ⟨?_, fun d hd => ?_, hmax, hstep, fun hno => ?_⟩ hs
  · show deadline.isSome = (level != (s.line l).acceptedLevel)
    rw [hflip, ← hsettling]
    rcases hdeadline with ⟨rfl, hwas⟩ | ⟨rfl, hwas⟩
    · simp [Line.settling, Option.isSome_iff_ne_none.mpr hwas]
    · simp [Line.settling, hwas]
  · rcases hdeadline with ⟨rfl, -⟩ | ⟨rfl, -⟩
    · cases hd
    · cases hd
      exact Nat.add_le_add_left hmax _
  · rw [hsampled] at hno
    cases hno

/-- The first sample leaves no line settling (R34). -/
theorem linesKept_endReset {s : State} (found : ResetEnd) (hsampled : s.sampled = false) (hs : LinesKept s) :
    LinesKept (endReset found s) := fun l => by
  obtain ⟨-, hdeadline, hmax, hstep, hfirst⟩ := hs l
  have hline : (endReset found s).line l = (s.line l).firstSample (found.levels.getLsbD l.val) := by simp [endReset]
  rw [hline]
  refine ⟨?_, hdeadline, hmax, hstep, fun _ => hfirst hsampled⟩
  show (s.line l).settling = (found.levels.getLsbD l.val != found.levels.getLsbD l.val)
  rw [hfirst hsampled, bne_self_eq_false]

theorem linesKept_reset (s : State) : LinesKept (deviceReset s) := fun l => by
  have hline : (deviceReset s).line l = Line.reset := by
    show (Vector.replicate 40 Line.reset)[l.val] = _
    simp
  rw [hline]
  exact ⟨rfl, by simp [Line.reset], by decide, rfl, fun _ => rfl⟩

theorem linesKept_of_effect {c : Instr} {s t : State} (ht : Effect c s t) (hedit : EditKept s) (hs : LinesKept s) :
    LinesKept t := by
  cases ht with
  | taken i h n v a _ _ _ _ htakes =>
    obtain ⟨hlines, hsampled, hclock⟩ := time_of_takenRequest (a := a) htakes
    exact linesKept_of_eq hlines hsampled hclock hs
  | claimRefused h a => rw [answerRequest_frame]; exact hs
  | claimIssued h i k a =>
    rw [answerRequest_frame]
    exact linesKept_of_eq (issue_lines _ h i k) (issue_sampled _ h i k) (issue_clock _ h i k) hs
  | conflict h p tg => exact linesKept_of_eq rfl rfl rfl hs
  | applied h =>
    obtain ⟨hsampled, hclock⟩ := foldl_applyEntry_time s.edit.staged s
    refine linesKept_of_eq (completeApply_lines h s) ?_ ?_
      (foldl_applyEntry_keeps (staged_valid hedit) (fun _ _ => linesKept_applyEntry) hs)
    · rw [hsampled]
      simp [completeApply]
    · rw [hclock]
      simp [completeApply]
  | released h => rw [release_frame]; exact hs
  | deviceReset => exact linesKept_reset s
  | resetEnded found _ hsampled => exact linesKept_endReset found hsampled hs
  | settling l level deadline _ hsampled hlevel hdeadline => exact linesKept_settling hsampled hlevel hdeadline hs
  | edge l level => exact linesKept_acceptEdge l level hs
  | _ => exact linesKept_of_eq (by simp) (by simp) (by simp) hs

/-! ## The clocks -/

theorem clock_of_effect {c : Instr} {s t : State} (ht : Effect c s t) :
    t.clock = s.clock ∨ Resets c s t := by
  cases ht with
  | taken i h n v a _ _ _ _ htakes => exact .inl (time_of_takenRequest htakes).2.2
  | claimRefused h a => rw [answerRequest_frame]; exact .inl rfl
  | claimIssued h i k a => rw [answerRequest_frame]; exact .inl (issue_clock _ h i k)
  | conflict h p tg => exact .inl rfl
  | applied h => exact .inl (by simp [completeApply])
  | deviceReset hc => exact .inr ⟨hc, rfl⟩
  | released h => rw [release_frame]; exact .inl rfl
  | _ => exact .inl (by simp)

theorem clockKept_of_effect {c : Instr} {s t : State} (ht : Effect c s t) (hs : ClockKept s) : ClockKept t := by
  unfold ClockKept
  rcases clock_of_effect ht with heq | ⟨_, rfl⟩
  · rwa [heq]
  · simp [deviceReset, State.reset, Clock.reset]

/-- R157: a microsecond advances both clocks together. -/
theorem clockKept_tick {s : State} (hs : ClockKept s) : ClockKept (tick s) := by
  obtain ⟨hof, hms⟩ := hs
  unfold tick
  split
  · show (s.clock.tick).usOfMs = s.clock.tick.us % 1000 ∧
      s.clock.tick.ms = BitVec.ofNat 32 (s.clock.tick.us / 1000)
    unfold Clock.tick
    split
    · refine ⟨?_, hms.trans (congrArg _ ?_)⟩ <;> dsimp only <;> omega
    · refine ⟨by dsimp only; omega, ?_⟩
      have hnext : (s.clock.us + 1) / 1000 = s.clock.us / 1000 + 1 := by omega
      show s.clock.ms + 1 = BitVec.ofNat 32 ((s.clock.us + 1) / 1000)
      rw [hnext, hms, BitVec.ofNat_add]
      rfl
  · exact ⟨hof, hms⟩

/-- The microsecond clock never goes back in a tick. -/
theorem us_le_tick (s : State) : s.clock.us ≤ (tick s).clock.us := by
  unfold tick
  split
  · show s.clock.us ≤ s.clock.tick.us
    unfold Clock.tick
    split <;> exact Nat.le_succ _
  · exact Nat.le_refl _

theorem linesKept_tick {s : State} (hs : LinesKept s) : LinesKept (tick s) := fun l => by
  obtain ⟨hsettling, hdeadline, hmax, hstep, hfirst⟩ := hs l
  have hline : (tick s).line l = s.line l := by rw [tick_frame]; rfl
  have hsampled : (tick s).sampled = s.sampled := by rw [tick_frame]
  rw [hline, LineKept, hsampled]
  exact ⟨hsettling, fun d hd => (hdeadline d hd).trans (Nat.add_le_add_right (us_le_tick s) 1020), hmax, hstep, hfirst⟩

/-- Limits, lines and clocks are in range. -/
def RangesKept (s : State) : Prop := LimitsKept s ∧ LinesKept s ∧ ClockKept s

theorem rangesKept_of_step {s t : State} (hedit : EditKept s) (hs : RangesKept s) (ht : step s = .next t) :
    RangesKept t := by
  obtain ⟨hlimits, hlines, hclock⟩ := hs
  rcases step_cases ht with ⟨_, rfl⟩ | ⟨c, rest, _, hc⟩
  · exact ⟨limitsKept_of_eq (by rw [tick_frame]) hlimits, linesKept_tick hlines, clockKept_tick hclock⟩
  · exact ⟨limitsKept_of_effect hc hedit hlimits, linesKept_of_effect hc hedit hlines, clockKept_of_effect hc hclock⟩

/-! ## While a reset lasts -/

/-- Every block of the part holds its reset values (R159). -/
def AtReset (s : State) : Prop :=
  s = { State.reset with ports := s.ports, drawn := s.drawn, pending := s.pending }

theorem state_eq {s t : State} (hsources : t.sources = s.sources) (hlines : t.lines = s.lines)
    (hsampled : t.sampled = s.sampled) (hlanes : t.lanes = s.lanes) (hhosts : t.hosts = s.hosts) (hatn : t.atn = s.atn)
    (hwaiting : t.waiting = s.waiting) (hrotation : t.rotation = s.rotation) (hslots : t.slots = s.slots)
    (hedit : t.edit = s.edit) (hfaults : t.faults = s.faults) (hclock : t.clock = s.clock) :
    t = { s with ports := t.ports, drawn := t.drawn, pending := t.pending } := by
  rw [← hsources, ← hlines, ← hsampled, ← hlanes, ← hhosts, ← hatn, ← hwaiting, ← hrotation, ← hslots, ← hedit,
    ← hfaults, ← hclock]

/-- Two tables with the same records are the same. -/
theorem vector_ext {α : Type} {n : Nat} {v w : Vector α n} (h : ∀ i : Fin n, v[i] = w[i]) : v = w :=
  Vector.ext fun i hi => h ⟨i, hi⟩

section Reset

variable {s : State} (hs : AtReset s)
include hs

theorem source_of_atReset (i : SourceId) : s.source i = Source.reset := by
  rw [hs]
  show (Vector.replicate 64 Source.reset)[i.val] = _
  simp

theorem slot_of_atReset (k : SlotId) : s.slot k = Slot.reset := by
  rw [hs]
  show (Vector.replicate 32 Slot.reset)[k.val] = _
  simp

theorem host_of_atReset (h : HostId) : s.host h = HostRec.reset := by
  rw [hs]
  show (Vector.replicate 4 HostRec.reset)[h.val] = _
  simp

theorem line_of_atReset (l : LineId) : s.line l = Line.reset := by
  rw [hs]
  show (Vector.replicate 40 Line.reset)[l.val] = _
  simp

theorem waitingClaim_of_atReset (h : HostId) : s.waitingClaim h = none := by
  rw [hs]
  show (Vector.replicate 4 (none : Option Byte))[h.val] = none
  simp

theorem holder_of_atReset : s.edit.holder = none := by
  rw [hs]
  rfl

theorem atnOf_of_atReset (h : HostId) : s.atnOf h = false := by
  rw [hs]
  show (Vector.replicate 4 false)[h.val] = false
  simp

theorem attached_of_atReset (h : HostId) : s.attached h = false := by
  rw [State.attached, host_of_atReset hs]
  rfl

theorem ticketsOf_of_atReset (h : HostId) : s.ticketsOf h = [] :=
  ticketsOf_eq_nil.mpr fun k u hu => by
    rw [slot_of_atReset hs] at hu
    cases hu

/-- With no tickets, a release ends none. -/
theorem releaseTickets_of_atReset (h : HostId) : releaseTickets h s = s := by
  have hfold (l : List SlotId) : l.foldl (fun x k => releaseSlot h k x) s = s := by
    induction l with
    | nil => rfl
    | cons k rest ih =>
      have hslot : releaseSlot h k s = s := by simp [releaseSlot, slot_of_atReset hs, Slot.reset]
      rw [List.foldl_cons, hslot, ih]
  exact hfold allSlots

/-- A release during a reset changes ports alone. -/
theorem atReset_release (h : HostId) : AtReset (release h s) := by
  have hreleased : release h s =
      recomputeAtn (((((clearOwedTo h s).setHost h HostRec.reset).setWaiting h none)).setPort h (s.port h).goDown) := by
    simp [release, ticketsOf_of_atReset hs, releaseTickets_of_atReset hs, releaseSession, holder_of_atReset hs,
      releaseChecks]
  have hsources : (release h s).sources = s.sources := sources_ext fun i => by
    show (release h s).source i = s.source i
    rw [hreleased, recomputeAtn_source, State.setPort_source, State.setWaiting_source, State.setHost_source,
      clearOwedTo_source, if_neg]
    simp [source_of_atReset hs, Source.reset, SourceConfig.reset]
  have hhosts : (release h s).hosts = s.hosts := vector_ext fun x => by
    show (release h s).host x = s.host x
    rw [hreleased]
    simp [State.setHost_host, host_of_atReset hs]
  have hwaiting : (release h s).waiting = s.waiting := vector_ext fun x => by
    show (release h s).waitingClaim x = s.waitingClaim x
    rw [hreleased]
    simp [State.setWaiting_waitingClaim, waitingClaim_of_atReset hs]
  have hatn : (release h s).atn = s.atn := vector_ext fun x => by
    show (release h s).atnOf x = s.atnOf x
    rw [atnOf_of_atReset hs, hreleased, recomputeAtn_atnOf]
    refine atnLevel_of_not_attached ?_
    simp [State.setHost_attached, attached_of_atReset hs, HostRec.reset]
  have hframe : release h s =
      { s with ports := (release h s).ports, drawn := (release h s).drawn, pending := (release h s).pending } := by
    refine state_eq hsources ?_ ?_ ?_ hhosts hatn hwaiting ?_ ?_ ?_ ?_ ?_ <;> rw [hreleased] <;> simp
  unfold AtReset
  rw [hframe, hs]

end Reset

theorem atReset_of_ports {s t : State} (h : t = { s with ports := t.ports, drawn := t.drawn, pending := t.pending })
    (hs : AtReset s) : AtReset t := by
  unfold AtReset at hs ⊢
  rw [h, hs]

theorem resetHeld_of_sampled {s : State} (h : s.sampled = true) : ResetHeld s := fun hno => by
  rw [h] at hno
  cases hno

/-- No effect but a device reset ends the sampling. -/
theorem sampled_of_effect {c : Instr} {s t : State} (ht : Effect c s t) (hs : s.sampled = true) :
    t.sampled = true ∨ Resets c s t := by
  cases ht with
  | taken i h n v a _ _ _ _ htakes => exact .inl ((time_of_takenRequest htakes).2.1.trans hs)
  | claimRefused h a => rw [answerRequest_frame]; exact .inl hs
  | claimIssued h i k a => rw [answerRequest_frame]; exact .inl ((issue_sampled _ h i k).trans hs)
  | conflict h p tg => exact .inl hs
  | applied h =>
    refine .inl (Eq.trans ?_ hs)
    simp [completeApply]
  | deviceReset hc => exact .inr ⟨hc, rfl⟩
  | released h => rw [release_frame]; exact .inl hs
  | resetEnded _ _ hno => rw [hs] at hno; cases hno
  | _ => exact .inl (by simpa using hs)

theorem afterReset_state (p : Port) : p.afterReset.state = .idle ∨ p.afterReset.state = .down := by
  unfold Port.afterReset
  split
  · exact .inr rfl
  · exact .inl rfl

theorem resetHeld_deviceReset (s : State) : ResetHeld (deviceReset s) := fun _ =>
  ⟨rfl, fun h => by
    have hport : (deviceReset s).port h = (s.port h).afterReset := by simp [deviceReset, State.port]
    rw [hport]
    exact afterReset_state _⟩

/-- While a reset lasts, only ports change, until it ends (R159). -/
theorem resetHeld_of_effect_in_reset {c : Instr} {s t : State} (ht : Effect c s t) (hno : s.sampled = false)
    (hs : AtReset s) (hports : ∀ h, (s.port h).state = .idle ∨ (s.port h).state = .down) : ResetHeld t := by
  have hsetPort (h : HostId) (p : Port) (hp : p.state = .idle ∨ p.state = .down) : ResetHeld (s.setPort h p) :=
    fun _ => ⟨atReset_of_ports rfl hs, fun x => by
      rw [State.setPort_port]
      split
      · exact hp
      · exact hports x⟩
  have hlisten {h : HostId} {P : Prop} (hlistens : windowIgnored s h = false) : P := by
    obtain ⟨hyes, -, -⟩ := windowIgnored_eq_false.mp hlistens
    rw [hno] at hyes
    cases hyes
  have hclaim {h : HostId} {P : Prop} (hwaits : (s.waitingClaim h).isSome = true) : P := by
    rw [waitingClaim_of_atReset hs] at hwaits
    cases hwaits
  have hholder {h : HostId} {P : Prop} (hheld : s.edit.holder = some h) : P := by
    rw [holder_of_atReset hs] at hheld
    cases hheld
  cases ht with
  | nothing => exact fun _ => ⟨hs, hports⟩
  | ignored h => exact hsetPort h _ (hports h)
  | window h p n _ hlistens => exact hlisten hlistens
  | taken _ h _ _ _ _ _ hlistens => exact hlisten hlistens
  | claim h _ _ _ hlistens => exact hlisten hlistens
  | commitBegun h _ _ hlistens => exact hlisten hlistens
  | claimRefused h _ _ hwaits => exact hclaim hwaits
  | claimIssued h _ _ _ _ hwaits => exact hclaim hwaits
  | conflict h _ _ _ hheld => exact hholder hheld
  | applied h _ hheld => exact hholder hheld
  | idleExpired h _ hheld => exact hholder hheld
  | leaseExpired k tk _ hslot =>
    rw [slot_of_atReset hs] at hslot
    cases hslot
  | released h =>
    refine fun _ => ⟨atReset_release hs h, fun x => ?_⟩
    have hport : (release h s).port x = (s.setPort h (s.port h).goDown).port x := release_port h s x
    rw [hport, State.setPort_port]
    split
    · exact .inr rfl
    · exact hports x
  | deasserted h o => exact hsetPort h _ (.inl rfl)
  | deviceReset => exact resetHeld_deviceReset s
  | resetEnded found => exact resetHeld_of_sampled rfl
  | settling _ _ _ _ hyes => rw [hno] at hyes; cases hyes
  | edge l level _ hline =>
    rcases hline with hyes | hsettling
    · rw [hno] at hyes
      cases hyes
    · rw [line_of_atReset hs] at hsettling
      cases hsettling

theorem resetHeld_of_effect {c : Instr} {s t : State} (ht : Effect c s t) (hs : ResetHeld s) : ResetHeld t := by
  cases hsampled : s.sampled with
  | false =>
    obtain ⟨hreset, hports⟩ := hs hsampled
    exact resetHeld_of_effect_in_reset ht hsampled hreset hports
  | true =>
    rcases sampled_of_effect ht hsampled with hyes | ⟨_, rfl⟩
    · exact resetHeld_of_sampled hyes
    · exact resetHeld_deviceReset s

theorem resetHeld_tick {s : State} (hs : ResetHeld s) : ResetHeld (tick s) := by
  cases hsampled : s.sampled with
  | false =>
    have hstands : tick s = s := by simp [tick, hsampled]
    rwa [hstands]
  | true =>
    refine resetHeld_of_sampled ?_
    rw [tick_frame]
    exact hsampled

theorem resetHeld_of_step {s t : State} (hs : ResetHeld s) (ht : step s = .next t) : ResetHeld t :=
  kept_of_step (P := ResetHeld) (fun _ _ h hno => ⟨atReset_of_ports rfl (h hno).1, (h hno).2⟩)
    (fun _ => resetHeld_tick) (fun _ _ _ => resetHeld_of_effect) hs ht

/-- Settles O59: the ranges effect by effect, and a reset's state by the effects that a reset admits. -/
theorem limitsAndLinesStayInRange : Obligations.LimitsAndLinesStayInRange :=
  ⟨fun _ _ => rangesKept_of_step, fun _ _ => resetHeld_of_step⟩

end Sys2Proof.Proofs
end

section
/-! PROOFS. Every ATN output is current (R49): each effect recomputes the outputs, or changes nothing that their levels
read. -/

namespace Sys2Proof.Proofs

open Sys2Proof.Machine Sys2Proof.Stated Sys2Proof.Safety

/-! ## What the levels read -/

/-- What R47 and R49 read of a live ticket. -/
def seenOf (t : Ticket) : HostId × LaneId × SourceId := (t.host, t.lane, t.source)

/-- From `s` to `t` nothing has changed that the level of an ATN output reads, nor any output (R47, R49). -/
structure SameReads (s t : State) : Prop where
  atn : t.atn = s.atn
  sources : t.sources = s.sources
  lanes : t.lanes = s.lanes
  attached : ∀ h, t.attached h = s.attached h
  laneMask : ∀ h, (t.host h).laneMask = (s.host h).laneMask
  tickets : t.liveTickets.map seenOf = s.liveTickets.map seenOf

/-- Slots with the same records hold the same live tickets. -/
theorem liveTickets_of_slots_eq {s t : State} (h : t.slots = s.slots) : t.liveTickets = s.liveTickets := by
  simp only [State.liveTickets, State.slot, h]

theorem sameReads_of_eq {s t : State} (hatn : t.atn = s.atn) (hsources : t.sources = s.sources)
    (hlanes : t.lanes = s.lanes) (hhosts : t.hosts = s.hosts) (hslots : t.slots = s.slots) : SameReads s t where
  atn := hatn
  sources := hsources
  lanes := hlanes
  attached h := congrArg (fun v : Vector HostRec 4 => v[h].attached) hhosts
  laneMask h := congrArg (fun v : Vector HostRec 4 => v[h].laneMask) hhosts
  tickets := by rw [liveTickets_of_slots_eq hslots]

/-- An edit_state is not among what the levels read. -/
theorem sameReads_setEditState (h : HostId) (es : EditState) (s : State) : SameReads s (setEditState h es s) where
  atn := rfl
  sources := rfl
  lanes := rfl
  attached x := setEditState_attached h x es s
  laneMask x := by
    rw [setEditState, State.setHost_host]
    split
    · next hx => rw [hx]
    · rfl
  tickets := rfl

theorem SameReads.trans {s u t : State} (h₁ : SameReads s u) (h₂ : SameReads u t) : SameReads s t where
  atn := h₂.atn.trans h₁.atn
  sources := h₂.sources.trans h₁.sources
  lanes := h₂.lanes.trans h₁.lanes
  attached h := (h₂.attached h).trans (h₁.attached h)
  laneMask h := (h₂.laneMask h).trans (h₁.laneMask h)
  tickets := h₂.tickets.trans h₁.tickets

theorem sameReads_setPort (h : HostId) (p : Port) (s : State) : SameReads s (s.setPort h p) :=
  sameReads_of_eq rfl rfl rfl rfl rfl

/-- Nor is the edit unit (R124). -/
theorem sameReads_session (h : HostId) (es : EditState) (e : EditUnit) (s : State) :
    SameReads s (setEditState h es (s.setEdit e)) :=
  .trans (u := s.setEdit e) (sameReads_of_eq rfl rfl rfl rfl rfl) (sameReads_setEditState h es _)

/-- An EXTEND moves fields that the levels do not read (R86). -/
theorem sameReads_extend {s : State} {k : SlotId} {t : Ticket} (hslot : (s.slot k).ticket = some t) (now : Millis) :
    SameReads s (s.setSlot k { s.slot k with ticket := some (extendTicket now t) }) where
  atn := rfl
  sources := rfl
  lanes := rfl
  attached _ := rfl
  laneMask _ := rfl
  tickets := by
    simp only [State.liveTickets, List.map_filterMap]
    refine List.filterMap_congr fun j _ => ?_
    rw [State.setSlot_slot]
    split
    · next hjk =>
      subst hjk
      rw [hslot]
      rfl
    · rfl

section Levels

variable {s t : State} (h : SameReads s t)
include h

theorem liveTotal_of_sameReads : t.liveTotal = s.liveTotal := by
  simpa [State.liveTotal] using congrArg List.length h.tickets

theorem hasCredit_of_sameReads (x : HostId) (k : LaneId) : hasCredit t x k = hasCredit s x k := by
  have hcount (u : State) : u.liveCount x k = (u.liveTickets.map seenOf).countP fun y => y.1 == x && y.2.1 == k := by
    rw [List.countP_map]
    rfl
  have hlimit : t.creditLimit k = s.creditLimit k := congrArg (fun v => v[k]) h.lanes
  rw [hasCredit, hasCredit, hcount, hcount, h.tickets, hlimit]

theorem source_of_sameReads (i : SourceId) : t.source i = s.source i := congrArg (fun v => v[i]) h.sources

theorem sourceTicket_isNone_of_sameReads (i : SourceId) : (t.sourceTicket i).isNone = (s.sourceTicket i).isNone := by
  have hany (u : State) : (u.sourceTicket i).isNone = !(u.liveTickets.map seenOf).any fun y => y.2.2 == i := by
    rw [List.any_map, ← Option.not_isSome, State.sourceTicket, List.isSome_find?]
    rfl
  rw [hany, hany, h.tickets]

theorem deliverable_of_sameReads (i : SourceId) (x : HostId) : deliverable t i x = deliverable s i x := by
  have hwaits : workWaits t i x = workWaits s i x := by
    simp only [workWaits, source_of_sameReads h, sourceTicket_isNone_of_sameReads h]
  simp only [deliverable, source_of_sameReads h, h.attached, h.laneMask, hwaits, hasCredit_of_sameReads h]

theorem atnLevel_of_sameReads (x : HostId) : atnLevel t x = atnLevel s x := by
  simp only [atnLevel, h.attached, liveTotal_of_sameReads h, deliverable_of_sameReads h]

theorem atnKept_of_sameReads (hs : AtnKept s) : AtnKept t := fun x => by
  have hatn : t.atnOf x = s.atnOf x := congrArg (fun v => v[x]) h.atn
  rw [hatn, atnLevel_of_sameReads h]
  exact hs x

end Levels

theorem atnKept_of_eq {s t : State} (hs : AtnKept s) (hatn : t.atn = s.atn) (hsources : t.sources = s.sources)
    (hlanes : t.lanes = s.lanes) (hhosts : t.hosts = s.hosts) (hslots : t.slots = s.slots) : AtnKept t :=
  atnKept_of_sameReads (sameReads_of_eq hatn hsources hlanes hhosts hslots) hs

theorem atnKept_recomputeAtn (s : State) : AtnKept (recomputeAtn s) := atnShown_recomputeAtn s

/-! ## The effects -/

theorem atnKept_of_takes {i : Instr} {h : HostId} {s v : State} (hv : Takes i h s v) (hs : AtnKept s) : AtnKept v := by
  cases hv with
  | nothing => exact hs
  | extend k t _ hslot => exact atnKept_of_sameReads (sameReads_extend hslot s.now) hs
  | faultTake | staged | dropped => exact atnKept_of_eq hs rfl rfl rfl rfl rfl
  | editOpen =>
    exact atnKept_of_sameReads (sameReads_session h .session _ s) hs
  | editClose =>
    exact atnKept_of_sameReads (sameReads_session h .none _ s) hs
  | attach | detach | setMask | done | defer | postOne | postEach | rearm => exact atnKept_recomputeAtn _

theorem atnKept_answerRequest (h : HostId) (a : Answer) {v : State} (hv : AtnKept v) :
    AtnKept (answerRequest h (v, a)) := by
  rw [answerRequest_frame]
  exact atnKept_of_eq hv rfl rfl rfl rfl rfl

theorem atnKept_formAnswer (h : HostId) (a : Answer) {v : State} (hv : AtnKept v) : AtnKept (formAnswer h a v) :=
  atnKept_of_eq hv rfl rfl rfl rfl rfl

theorem deviceReset_attached (s : State) (h : HostId) : (deviceReset s).attached h = false := by
  have hhost : (deviceReset s).host h = HostRec.reset := by
    show (Vector.replicate 4 HostRec.reset)[h.val] = _
    simp
  rw [State.attached, hhost]
  rfl

theorem atnKept_deviceReset (s : State) : AtnKept (deviceReset s) := fun h => by
  rw [atnLevel_of_not_attached (deviceReset_attached s h)]
  show (Vector.replicate 4 false)[h.val] = false
  simp

theorem atnKept_of_effect {c : Instr} {s t : State} (ht : Effect c s t) (hs : AtnKept s) : AtnKept t := by
  cases ht with
  | nothing => exact hs
  | ignored | window | claim | deasserted | settling => exact atnKept_of_eq hs rfl rfl rfl rfl rfl
  | taken i h n v a _ _ _ _ htakes =>
    have hpassed : AtnKept (s.setPort h (passedPort n (s.port h))) := atnKept_of_eq hs rfl rfl rfl rfl rfl
    exact atnKept_answerRequest h a (atnKept_of_takes htakes hpassed)
  | commitBegun h n =>
    exact atnKept_of_sameReads ((sameReads_setPort h _ s).trans (sameReads_session h .commit _ _)) hs
  | claimRefused h a => exact atnKept_answerRequest h a (atnKept_of_eq hs rfl rfl rfl rfl rfl)
  | claimIssued h i k a => exact atnKept_answerRequest h a (atnKept_recomputeAtn _)
  | conflict h p tg =>
    exact atnKept_formAnswer h _ (atnKept_of_sameReads (sameReads_session h .session _ s) hs)
  | applied h => exact atnKept_formAnswer h _ (atnKept_recomputeAtn _)
  | resetEnded found => exact atnKept_of_eq hs (by simp) (by simp) (by simp) (by simp) (by simp)
  | deviceReset => exact atnKept_deviceReset s
  | idleExpired | leaseExpired | released | edge => exact atnKept_recomputeAtn _

theorem atnKept_of_step {s t : State} (hs : AtnKept s) (ht : step s = .next t) : AtnKept t := by
  refine kept_of_step (P := AtnKept) (fun s q h => ?_) (fun s h => ?_) (fun _ _ _ => atnKept_of_effect) hs ht
  · exact atnKept_of_eq h rfl rfl rfl rfl rfl
  · rw [tick_frame]
    exact atnKept_of_eq h rfl rfl rfl rfl rfl

/-- Settles O56: an effect that does not recompute the outputs changes nothing that their levels read. -/
theorem attentionIsAlwaysCurrent : Obligations.AttentionIsAlwaysCurrent := fun _ _ => atnKept_of_step

end Sys2Proof.Proofs
end

section
/-! PROOFS. The agreement of edit unit, host records, ports and waiting claims (R57, R111, R124, R125, R134, R149): each
of the two invariants on the values it reads, then every effect. -/

namespace Sys2Proof.Proofs

open Sys2Proof.Machine Sys2Proof.Stated Sys2Proof.Safety

/-! ## The edit unit -/

/-- `EditKept` on what it reads: the edit unit, and of each host whether it is attached and its edit_state. -/
def EditFits (e : EditUnit) (attached : HostId → Bool) (shown : HostId → EditState) : Prop :=
  (e.holder = none → e.staged = [] ∧ e.commitInFlight = false) ∧
  e.idleDeadline.isSome = (e.holder.isSome && !e.commitInFlight) ∧
  e.commitBoundUs.isSome = e.commitInFlight ∧
  e.staged.length ≤ 16 ∧ (e.staged.map StagedEntry.target).Nodup ∧ (∀ x ∈ e.staged, StagedEntry.Valid x) ∧
  (∀ h ∈ e.holder, attached h = true) ∧ ∀ h : HostId, shown h = editStateOf e h

theorem editKept_iff (s : State) : EditKept s ↔ EditFits s.edit s.attached fun h => (s.host h).editState := Iff.rfl

theorem editKept_of_eq {s t : State} (hedit : t.edit = s.edit) (hhosts : t.hosts = s.hosts) (hs : EditKept s) :
    EditKept t := by
  have hhost : t.host = s.host := funext fun h => congrArg (fun v => v[h]) hhosts
  have hattached : t.attached = s.attached := funext fun h => congrArg HostRec.attached (congrFun hhost h)
  rw [editKept_iff, hedit, hhost, hattached]
  exact hs

/-- R127: a restarted deadline agrees with the rest of the edit unit. -/
theorem editKept_touchIdle (h : HostId) {s : State} (hs : EditKept s) : EditKept (touchIdle h s) := by
  unfold touchIdle
  split
  · next hholds =>
    obtain ⟨hheld, hflight⟩ := hholds
    obtain ⟨hfree, -, hbound, hlength, hnodup, hvalid, hattached, hshown⟩ := hs
    refine ⟨hfree, ?_, hbound, hlength, hnodup, hvalid, hattached, hshown⟩
    simp [hheld, hflight]
  · exact hs

theorem editKept_answerRequest (h : HostId) (a : Answer) {v : State} (hv : EditKept v) :
    EditKept (answerRequest h (v, a)) :=
  editKept_of_eq (formAnswer_edit _ h a) (formAnswer_hosts _ h a) (editKept_touchIdle h hv)

/-- The edit state of `h` shows an edit unit that `h` holds, the others' that they do not hold it. -/
theorem shown_setEditState {s : State} {h : HostId} {e : EditUnit} {es : EditState} (hself : es = editStateOf e h)
    (hothers : ∀ x, x ≠ h → (s.host x).editState = editStateOf e x) (x : HostId) :
    ((setEditState h es (s.setEdit e)).host x).editState = editStateOf e x := by
  by_cases hx : x = h
  · subst hx
    rw [setEditState_host_self]
    exact hself
  · rw [setEditState_host_ne _ _ hx]
    exact hothers x hx

theorem editStateOf_of_holder_ne {e : EditUnit} {h : HostId} (hother : e.holder ≠ some h) :
    editStateOf e h = .none :=
  if_neg hother

/-- A host that does not hold the session shows none. -/
theorem editState_of_holder_ne {s : State} {h : HostId} (hs : EditKept s) (hother : s.edit.holder ≠ some h) :
    (s.host h).editState = .none := by
  obtain ⟨-, -, -, -, -, -, -, hshown⟩ := hs
  rw [hshown, editStateOf_of_holder_ne hother]

theorem holder_ne_of_ne {e : EditUnit} {h x : HostId} (hheld : e.holder = some h) (hx : x ≠ h) :
    e.holder ≠ some x := fun hother => hx (Option.some.inj (hother.symm.trans hheld))

theorem editStateOf_reset (h : HostId) : editStateOf EditUnit.reset h = .none := rfl

/-- An edit unit at its reset values, while no host shows a session (R124). -/
theorem editKept_of_reset {t : State} (hedit : t.edit = EditUnit.reset)
    (hshown : ∀ x, (t.host x).editState = .none) : EditKept t := by
  rw [editKept_iff, hedit]
  exact ⟨fun _ => ⟨rfl, rfl⟩, rfl, rfl, Nat.zero_le 16, List.nodup_nil, (fun _ hx => nomatch hx),
    (fun _ hx => nomatch hx), hshown⟩

/-- The end of the session of its holder leaves the edit unit empty (R128, R133, R136). -/
theorem editKept_endSession {s : State} {h : HostId} (hheld : s.edit.holder = some h) (hs : EditKept s) :
    EditKept (endSession h s) :=
  editKept_of_reset rfl fun x =>
    shown_setEditState (e := EditUnit.reset) (editStateOf_reset h).symm (fun x hx => by
      rw [editState_of_holder_ne hs (holder_ne_of_ne hheld hx)]
      exact (editStateOf_reset x).symm) x

/-- The holder's session moves between open and committing (R134, R135): `e` differs from the edit unit in that and in
the deadlines alone. -/
theorem editKept_session {s : State} {h : HostId} {e : EditUnit} {es : EditState} (hheld : s.edit.holder = some h)
    (hholder : e.holder = some h) (hstaged : e.staged = s.edit.staged)
    (hidle : e.idleDeadline.isSome = !e.commitInFlight) (hbound : e.commitBoundUs.isSome = e.commitInFlight)
    (hes : es = if e.commitInFlight then .commit else .session) (hs : EditKept s) :
    EditKept (setEditState h es (s.setEdit e)) := by
  have hothers := fun x hx => editState_of_holder_ne (h := x) hs (holder_ne_of_ne hheld hx)
  obtain ⟨-, -, -, hlength, hnodup, hvalid, hattached, -⟩ := hs
  refine ⟨fun hnone => ?_, ?_, hbound, ?_, ?_, ?_, fun x hx => ?_, shown_setEditState ?_ fun x hx => ?_⟩
  · exact absurd (hholder.symm.trans hnone) (Option.some_ne_none h)
  · show e.idleDeadline.isSome = (e.holder.isSome && !e.commitInFlight)
    rw [hholder, hidle]
    rfl
  · exact hstaged ▸ hlength
  · exact hstaged ▸ hnodup
  · exact hstaged ▸ hvalid
  · obtain rfl : h = x := Option.some.inj (hholder.symm.trans hx)
    exact (setEditState_attached h h es _).trans (hattached h hheld)
  · rw [hes, editStateOf, if_pos hholder]
  · rw [hothers x hx, editStateOf_of_holder_ne (holder_ne_of_ne hholder hx)]

/-! ## The staged list -/

theorem mem_stageEntry {e x : StagedEntry} {l : List StagedEntry} (hx : x ∈ stageEntry e l) : x = e ∨ x ∈ l := by
  unfold stageEntry at hx
  split at hx
  · exact (List.mem_or_eq_of_mem_set hx).symm
  · rcases List.mem_append.mp hx with hx | hx
    · exact .inr hx
    · exact .inl (List.mem_singleton.mp hx)

theorem length_stageEntry {e : StagedEntry} {l : List StagedEntry} (hl : l.length ≤ 16)
    (hroom : positionOf e.target l = none → l.length < 16) : (stageEntry e l).length ≤ 16 := by
  unfold stageEntry
  split
  · rwa [List.length_set]
  · next hp =>
    have hlt := hroom hp
    simp only [List.length_append, List.length_singleton]
    omega

/-- R125, R130: staging replaces the target's entry or appends one for a new target. -/
theorem nodup_stageEntry {e : StagedEntry} {l : List StagedEntry} (hl : (l.map StagedEntry.target).Nodup) :
    ((stageEntry e l).map StagedEntry.target).Nodup := by
  unfold stageEntry
  split
  · next p hp =>
    obtain ⟨x, hx, htarget, -⟩ := positionOf_eq_some hp
    have hsame : (l.set p e).map StagedEntry.target = l.map StagedEntry.target := by
      rw [List.map_set, ← htarget]
      refine List.ext_getElem? fun j => ?_
      rw [List.getElem?_set]
      split
      · next hpj =>
        subst hpj
        have hlt : p < (l.map StagedEntry.target).length := by
          rw [List.length_map]
          exact (List.getElem?_eq_some_iff.mp hx).1
        rw [if_pos hlt, List.getElem?_map, hx]
        rfl
      · rfl
    rwa [hsame]
  · next hp =>
    rw [List.map_append, List.map_singleton]
    refine List.nodup_append.mpr ⟨hl, List.nodup_singleton _, fun a ha b hb => ?_⟩
    obtain ⟨x, hx, rfl⟩ := List.mem_map.mp ha
    rw [List.mem_singleton.mp hb]
    exact positionOf_eq_none.mp hp x hx

/-- A staged list that stays in bounds is all that a change of it has to show. -/
theorem editKept_setStaged {s : State} {h : HostId} {l : List StagedEntry} (hheld : s.edit.holder = some h)
    (hlength : l.length ≤ 16) (hnodup : (l.map StagedEntry.target).Nodup) (hvalid : ∀ e ∈ l, StagedEntry.Valid e)
    (hs : EditKept s) : EditKept (setStaged l s) := by
  obtain ⟨-, hidle, hbound, -, -, -, hattached, hshown⟩ := hs
  exact ⟨fun hnone => absurd (hheld.symm.trans hnone) (Option.some_ne_none h), hidle, hbound, hlength, hnodup, hvalid,
    hattached, hshown⟩

/-! ## What a block makes of the edit unit -/

/-- Host `h`'s commit is in flight. -/
def committing (s : State) (h : HostId) : Bool := s.edit.holder == some h && s.edit.commitInFlight

theorem committing_of_edit_eq {s t : State} (h : t.edit = s.edit) (x : HostId) : committing t x = committing s x := by
  rw [committing, committing, h]

/-- A change of a host's record that keeps its edit_state. -/
theorem editKept_setHost {s t : State} {h : HostId} {r : HostRec} (hedit : t.edit = s.edit)
    (hhosts : t.hosts = (s.setHost h r).hosts) (hes : r.editState = (s.host h).editState)
    (hattached : s.edit.holder = some h → r.attached = true) (hs : EditKept s) : EditKept t := by
  refine editKept_of_eq (s := s.setHost h r) hedit hhosts ?_
  obtain ⟨hfree, hidle, hbound, hlength, hnodup, hvalid, hholder, hshown⟩ := hs
  refine ⟨hfree, hidle, hbound, hlength, hnodup, hvalid, fun x hx => ?_, fun x => ?_⟩
  · rw [State.setHost_attached]
    split
    · next heq =>
      subst heq
      exact hattached hx
    · exact hholder x hx
  · rw [State.setHost_host]
    split
    · next heq =>
      subst heq
      exact hes.trans (hshown h)
    · exact hshown x

theorem editKept_of_takes {i : Instr} {h : HostId} {s v : State} (hv : Takes i h s v) (hidle : committing s h = false)
    (hs : EditKept s) : EditKept v := by
  cases hv with
  | nothing => exact hs
  | attach mask =>
    refine editKept_setHost (h := h) (r := { s.host h with attached := true, laneMask := mask }) ?_ ?_ rfl
      (fun _ => rfl) hs
    · rw [attachedWith_frame]
      simp
    · rw [attachedWith_frame]
      simp
  | detach hattached hfree hsession =>
    have hholder : s.edit.holder ≠ some h := fun hheld => by
      obtain ⟨-, -, -, -, -, -, -, hshown⟩ := hs
      have hflight : s.edit.commitInFlight = false := by simpa [committing, hheld] using hidle
      exact hsession (by rw [hshown, editStateOf, if_pos hheld, hflight]; rfl)
    refine editKept_setHost (h := h) (r := { s.host h with attached := false, laneMask := 0 }) ?_ ?_ rfl
      (fun hheld => absurd hheld hholder) hs
    · simp
    · simp
  | setMask mask hattached =>
    refine editKept_setHost (h := h) (r := { s.host h with laneMask := mask }) ?_ ?_ rfl (fun _ => hattached) hs
    · simp
    · simp
  | editOpen hattached hfree =>
    refine ⟨fun hnone => absurd hnone (Option.some_ne_none h), rfl, rfl, Nat.zero_le 16, List.nodup_nil,
      (fun _ hx => nomatch hx), fun x hx => ?_, shown_setEditState ?_ fun x hx => ?_⟩
    · obtain rfl : h = x := Option.some.inj hx
      exact (setEditState_attached h h .session _).trans hattached
    · rw [editStateOf, if_pos rfl]
      rfl
    · rw [editState_of_holder_ne hs (hfree ▸ Option.some_ne_none x).symm]
      exact (editStateOf_of_holder_ne fun heq => hx (Option.some.inj heq).symm).symm
  | editClose hheld => exact editKept_endSession hheld hs
  | staged e hheld hvalid hroom =>
    obtain ⟨-, -, -, hlength, hnodup, hall, -, -⟩ := id hs
    refine editKept_setStaged hheld (length_stageEntry hlength hroom) (nodup_stageEntry hnodup) (fun x hx => ?_) hs
    rcases mem_stageEntry hx with rfl | hx
    · exact hvalid
    · exact hall x hx
  | dropped p hheld =>
    obtain ⟨-, -, -, hlength, hnodup, hall, -, -⟩ := id hs
    refine editKept_setStaged hheld ?_ ?_ (fun x hx => hall x (List.mem_of_mem_eraseIdx hx)) hs
    · exact (List.length_eraseIdx_le _ _).trans hlength
    · rw [← List.eraseIdx_map]
      exact hnodup.sublist (List.eraseIdx_sublist _ _)
  | done | defer | extend | postOne | postEach | rearm | faultTake => exact editKept_of_eq (by simp) (by simp) hs

theorem release_edit (h : HostId) (s : State) :
    (release h s).edit = if s.edit.holder = some h then EditUnit.reset else s.edit := by
  unfold release releaseSession
  dsimp only
  split <;> split <;> simp_all [clearOwedTo]

/-- R117, R120: a release ends a session of the released host and leaves another host's as it was. -/
theorem editKept_release (h : HostId) {s : State} (hs : EditKept s) : EditKept (release h s) := by
  have hhost := release_host h s
  have hedit := release_edit h s
  by_cases hheld : s.edit.holder = some h
  · rw [if_pos hheld] at hedit
    refine editKept_of_reset hedit fun x => ?_
    rw [hhost, State.setHost_host]
    split
    · rfl
    · next hx => exact editState_of_holder_ne hs (holder_ne_of_ne hheld (Ne.symm hx))
  · rw [if_neg hheld] at hedit
    refine editKept_setHost (h := h) (r := HostRec.reset) hedit (vector_ext hhost)
      (editState_of_holder_ne hs hheld).symm (fun hheld' => absurd hheld' hheld) hs

theorem deviceReset_host (s : State) (h : HostId) : (deviceReset s).host h = HostRec.reset := by
  show (Vector.replicate 4 HostRec.reset)[h.val] = _
  simp

theorem editKept_of_effect {c : Instr} {s t : State} (ht : Effect c s t)
    (hworking : ∀ h, (s.port h).state ≠ .working → committing s h = false) (hs : EditKept s) : EditKept t := by
  cases ht with
  | taken i h n v a _ _ _ hfree htakes =>
    have hpassed : EditKept (s.setPort h (passedPort n (s.port h))) := editKept_of_eq rfl rfl hs
    exact editKept_answerRequest h a (editKept_of_takes htakes (hworking h hfree) hpassed)
  | commitBegun h n _ _ _ hheld =>
    exact editKept_session (s := s.setPort h (passedPort n (s.port h))) hheld hheld rfl rfl rfl rfl
      (editKept_of_eq rfl rfl hs)
  | claimRefused h a => exact editKept_answerRequest h a (editKept_of_eq rfl rfl hs)
  | claimIssued h i k a => exact editKept_answerRequest h a (editKept_of_eq (by simp) (by simp) hs)
  | conflict h p tg _ hheld =>
    exact editKept_of_eq (formAnswer_edit _ h _) (formAnswer_hosts _ h _)
      (editKept_session hheld hheld rfl rfl rfl rfl hs)
  | applied h _ hheld =>
    have happlied : EditKept (applyAll s.edit.staged s) := editKept_of_eq (by simp) (by simp) hs
    refine editKept_of_eq (s := endSession h (applyAll s.edit.staged s)) (by simp [completeApply])
      (by simp [completeApply]) (editKept_endSession ?_ happlied)
    rw [applyAll_edit]
    exact hheld
  | idleExpired h _ hheld =>
    exact editKept_of_eq (s := endSession h s) (by simp) (by simp) (editKept_endSession hheld hs)
  | released h => exact editKept_release h hs
  | deviceReset => exact editKept_of_reset rfl fun x => by rw [deviceReset_host]; rfl
  | _ => exact editKept_of_eq (by simp) (by simp) hs

/-! ## One port -/

/-- `PortKept` on what it reads. -/
def PortFits (p : Port) (claiming committing attached : Bool) : Prop :=
  (p.state == .working) = (claiming || committing) ∧ (claiming && committing) = false ∧
  (p.answerBuffer ≠ [] ↔ p.state = .answered) ∧
  ((p.prevUnread = true ∨ p.refused = true) → p.state = .working) ∧
  (p.ignoring = true → p.state = .idle) ∧ p.state ≠ .receiving ∧ p.priorState = none ∧ p.receiveBuffer = [] ∧
  (p.state = .down → attached = false)

theorem portKept_iff (s : State) (h : HostId) :
    PortKept s h ↔ PortFits (s.port h) (s.waitingClaim h).isSome (committing s h) (s.attached h) := Iff.rfl

/-- A port that is not WORKING has neither a claim nor a commit that waits for it. -/
theorem idle_of_portFits {p : Port} {claiming committing attached : Bool} (hp : PortFits p claiming committing attached)
    (hfree : p.state ≠ .working) : claiming = false ∧ committing = false := by
  obtain ⟨hworking, -⟩ := hp
  rw [beq_false_of_ne hfree] at hworking
  exact Bool.or_eq_false_iff.mp hworking.symm

theorem working_of_portFits {p : Port} {claiming committing attached : Bool}
    (hp : PortFits p claiming committing attached) (hwaits : claiming = true ∨ committing = true) :
    p.state = .working ∧ p.ignoring = false := by
  obtain ⟨hworking, -, -, -, hignoring, -⟩ := hp
  have hstate : p.state = .working := by
    rcases hwaits with rfl | rfl <;> simpa using hworking
  refine ⟨hstate, Bool.eq_false_iff.mpr fun hyes => ?_⟩
  rw [hignoring hyes] at hstate
  cases hstate

/-- A port that takes windows and is not WORKING is ready: IDLE or ANSWERED. -/
theorem ready_of_portFits {p : Port} {claiming committing attached : Bool}
    (hp : PortFits p claiming committing attached) (hup : p.state ≠ .down) (hfree : p.state ≠ .working) :
    p.state = .idle ∨ p.state = .answered := by
  obtain ⟨-, -, -, -, -, hreceiving, -⟩ := hp
  cases hstate : p.state with
  | idle => exact .inl rfl
  | answered => exact .inr rfl
  | receiving => exact absurd hstate hreceiving
  | working => exact absurd hstate hfree
  | down => exact absurd hstate hup

/-- R153: a port that has its answer. -/
theorem portFits_answer {p : Port} (hignoring : p.ignoring = false) (a : Answer) (flags : Byte) (attached : Bool) :
    PortFits (p.answer a flags) false false attached :=
  ⟨rfl, rfl, ⟨fun _ => rfl, fun _ => List.cons_ne_nil _ _⟩, fun hflag => by simp [Port.answer] at hflag,
    fun hyes => absurd (hignoring.symm.trans hyes) Bool.false_ne_true, by simp [Port.answer], rfl, rfl,
    fun hdown => by simp [Port.answer] at hdown⟩

/-- R153: a port that has passed a request on, for a claim or for a commit. -/
theorem portFits_passedPort {p : Port} {attached : Bool} (hp : PortFits p false false attached)
    (hready : p.state = .idle ∨ p.state = .answered) (hignoring : p.ignoring = false) (n : Nat) {claiming : Bool} :
    PortFits (passedPort n p) claiming (!claiming) attached := by
  obtain ⟨-, -, hanswer, -, -, -, hprior, -, -⟩ := hp
  rcases hready with hstate | hstate
  · have hempty : p.answerBuffer = [] := by simpa [hstate] using hanswer
    simp [PortFits, Port.putZeros, Port.openRequest, Port.disposeAnswer, Port.passOn, hstate, hempty, hignoring]
  · simp [PortFits, Port.putZeros, Port.openRequest, Port.disposeAnswer, Port.passOn, hstate, hignoring]

/-- R148 to R154: a window on a port that takes it. -/
theorem portFits_windowMove {p q : Port} {claiming committing attached : Bool}
    (hp : PortFits p claiming committing attached) (hup : p.state ≠ .down) (hignoring : p.ignoring = false)
    (hq : WindowMove p q) : PortFits q claiming committing attached := by
  have hready := ready_of_portFits hp hup
  have hidle := idle_of_portFits hp
  obtain ⟨hworking, hone, hanswer, hflags, hignored, hreceiving, hprior, hbuffer, hdown⟩ := hp
  cases hq with
  | refused n hstate =>
    exact ⟨hworking, hone, hanswer, fun _ => hstate, hignored, hreceiving, hprior, hbuffer, hdown⟩
  | putsOut out => exact ⟨hworking, hone, hanswer, hflags, hignored, hreceiving, hprior, hbuffer, hdown⟩
  | readWhole out hstate =>
    obtain ⟨rfl, rfl⟩ := hidle (by simp [hstate])
    refine ⟨rfl, rfl, by simp, fun hflag => ?_, fun _ => rfl, by simp, hprior, hbuffer, by simp⟩
    have := hflags hflag
    simp [hstate] at this
  | rejected n bytes a flags hfree =>
    obtain ⟨rfl, rfl⟩ := hidle hfree
    refine portFits_answer ?_ a flags attached
    rcases hready hfree with hstate | hstate <;>
      simp [Port.putZeros, Port.openRequest, Port.clockIn, Port.disposeAnswer, hstate, hignoring]
  | dropped n bytes hfree =>
    obtain ⟨rfl, rfl⟩ := hidle hfree
    rcases hready hfree with hstate | hstate <;>
      simp_all [PortFits, Port.putZeros, Port.openRequest, Port.clockIn, Port.discardFrame]

/-- R148, R156, R159: an ignored window. -/
theorem portFits_endIgnored {p : Port} {claiming committing attached : Bool}
    (hp : PortFits p claiming committing attached) : PortFits p.endIgnored claiming committing attached := by
  obtain ⟨hworking, hone, hanswer, hflags, -, hreceiving, hprior, hbuffer, hdown⟩ := hp
  exact ⟨hworking, hone, hanswer, hflags, fun hyes => absurd hyes Bool.false_ne_true, hreceiving, hprior, hbuffer,
    hdown⟩

/-- R156, R159: an empty port, IDLE or in DOWN, of which nothing is awaited. -/
theorem portFits_empty {p : Port} {attached : Bool} (hstate : p.state = .idle ∨ p.state = .down)
    (hempty : p.answerBuffer = [] ∧ p.receiveBuffer = [] ∧ p.priorState = none)
    (hflags : p.prevUnread = false ∧ p.refused = false) (hignoring : p.ignoring = true → p.state = .idle)
    (hdown : p.state = .down → attached = false) : PortFits p false false attached := by
  obtain ⟨hanswer, hbuffer, hprior⟩ := hempty
  obtain ⟨hunread, hrefused⟩ := hflags
  refine ⟨?_, rfl, ?_, ?_, hignoring, ?_, hprior, hbuffer, hdown⟩ <;> rcases hstate with hstate | hstate <;>
    simp [hstate, hanswer, hunread, hrefused]

/-! ## Every port -/

/-- From `s` to `t` nothing has changed that the records of a port other than `h`'s agree with. -/
theorem portsKept_of_others {s t : State} {h : HostId} (hothers : OthersKept h s t)
    (hcommitting : ∀ x, x ≠ h → committing t x = committing s x)
    (hself : PortFits (t.port h) (t.waitingClaim h).isSome (committing t h) (t.attached h)) (hs : PortsKept s) :
    PortsKept t := fun x => by
  by_cases hx : x = h
  · subst hx
    exact hself
  · obtain ⟨hport, hwaiting, hhost⟩ := hothers x hx
    have hattached : t.attached x = s.attached x := congrArg HostRec.attached hhost
    rw [portKept_iff, hport, hwaiting, hattached, hcommitting x hx]
    exact hs x

theorem portsKept_of_same {s t : State} (hports : t.ports = s.ports) (hwaiting : t.waiting = s.waiting)
    (hcommitting : ∀ x, committing t x = committing s x) (hattached : ∀ x, t.attached x = s.attached x)
    (hs : PortsKept s) : PortsKept t := fun x => by
  have hport : t.port x = s.port x := congrArg (fun v => v[x]) hports
  have hclaim : t.waitingClaim x = s.waitingClaim x := congrArg (fun v => v[x]) hwaiting
  rw [portKept_iff, hport, hclaim, hattached, hcommitting]
  exact hs x

theorem portsKept_of_eq {s t : State} (hports : t.ports = s.ports) (hwaiting : t.waiting = s.waiting)
    (hedit : t.edit = s.edit) (hhosts : t.hosts = s.hosts) (hs : PortsKept s) : PortsKept t :=
  portsKept_of_same hports hwaiting (committing_of_edit_eq hedit) (fun x => congrArg (fun v => v[x].attached) hhosts) hs

theorem committing_of_not_inFlight {s : State} (hidle : s.edit.commitInFlight = false) (x : HostId) :
    committing s x = false := by
  rw [committing, hidle, Bool.and_false]

theorem committing_of_holder_ne {s : State} {x : HostId} (hother : s.edit.holder ≠ some x) :
    committing s x = false := by
  rw [committing, beq_false_of_ne hother, Bool.false_and]

theorem committing_touchIdle (h : HostId) (s : State) (x : HostId) :
    committing (touchIdle h s) x = committing s x := by
  unfold touchIdle
  split <;> rfl

/-- No block starts or ends a commit by taking a request of a host that has none in flight. -/
theorem committing_of_takes {i : Instr} {h : HostId} {s v : State} (hv : Takes i h s v)
    (hidle : committing s h = false) (x : HostId) : committing v x = committing s x := by
  cases hv with
  | editOpen _ hfree =>
    rw [committing_of_not_inFlight rfl, committing_of_holder_ne (hfree ▸ Option.some_ne_none x).symm]
  | editClose hheld =>
    have hflight : s.edit.commitInFlight = false := by simpa [committing, hheld] using hidle
    rw [committing_of_not_inFlight hflight, committing_of_not_inFlight rfl]
  | attach mask =>
    refine committing_of_edit_eq ?_ x
    rw [attachedWith_frame]
    simp
  | staged | dropped => rfl
  | _ => exact committing_of_edit_eq (by simp) x

/-- R153: the host's answer, formed while neither a claim nor a commit of it waits. -/
theorem portsKept_answered {s v : State} {h : HostId} (a : Answer) (hothers : OthersKept h s v)
    (hcommitting : ∀ x, x ≠ h → committing v x = committing s x) (hclaiming : v.waitingClaim h = none)
    (hidle : committing v h = false) (hignoring : (v.port h).ignoring = false) (hs : PortsKept s) :
    PortsKept (formAnswer h a v) := by
  refine portsKept_of_others (h := h) (.trans hothers (othersKept_formAnswer h a v)) (fun x hx => ?_) ?_ hs
  · rw [committing_of_edit_eq (formAnswer_edit v h a), hcommitting x hx]
  · have hwaiting : (formAnswer h a v).waitingClaim h = none := hclaiming
    rw [committing_of_edit_eq (formAnswer_edit v h a), hidle, hwaiting, formAnswer, State.setPort_port_self]
    exact portFits_answer hignoring a _ _

/-- The same of the answer to a request that its block has taken (R127). -/
theorem portsKept_answerRequest {s v : State} {h : HostId} (a : Answer) (hothers : OthersKept h s v)
    (hcommitting : ∀ x, x ≠ h → committing v x = committing s x) (hclaiming : v.waitingClaim h = none)
    (hidle : committing v h = false) (hignoring : (v.port h).ignoring = false) (hs : PortsKept s) :
    PortsKept (answerRequest h (v, a)) := by
  refine portsKept_answered (v := touchIdle h v) a ?_ (fun x hx => ?_) ?_ ?_ ?_ hs
  · exact hothers.trans (othersKept_of_eq (touchIdle_ports v h) (touchIdle_waiting v h) (touchIdle_hosts v h))
  · rw [committing_touchIdle, hcommitting x hx]
  · rw [touchIdle_waitingClaim, hclaiming]
  · rw [committing_touchIdle, hidle]
  · rw [touchIdle_port, hignoring]

theorem up_of_listens {s : State} {h : HostId} (hlistens : windowIgnored s h = false) :
    (s.port h).state ≠ .down ∧ (s.port h).ignoring = false := by
  simp only [windowIgnored, Bool.or_eq_false_iff, beq_eq_false_iff_ne] at hlistens
  obtain ⟨⟨-, hup⟩, hignoring⟩ := hlistens
  exact ⟨hup, hignoring⟩

theorem passedPort_ignoring {p : Port} (hready : p.state = .idle ∨ p.state = .answered) (n : Nat) :
    (passedPort n p).ignoring = p.ignoring := by
  rcases hready with hstate | hstate <;>
    simp [Port.putZeros, Port.openRequest, Port.disposeAnswer, Port.passOn, hstate]

/-- A change of one port alone. -/
theorem portsKept_setPort {s t : State} {h : HostId} {p : Port} (ht : t = s.setPort h p)
    (hp : PortFits p (s.waitingClaim h).isSome (committing s h) (s.attached h)) (hs : PortsKept s) : PortsKept t := by
  subst ht
  refine portsKept_of_others (othersKept_setPort h s p) (fun _ _ => rfl) ?_ hs
  rw [State.setPort_port_self]
  exact hp

/-- R148 to R153: the port of a request that its block takes is ready, and nothing of its host waits. -/
theorem ready_of_taken {s : State} {h : HostId} (hs : PortsKept s) (hlistens : windowIgnored s h = false)
    (hfree : (s.port h).state ≠ .working) :
    ((s.port h).state = .idle ∨ (s.port h).state = .answered) ∧ (s.port h).ignoring = false ∧
      s.waitingClaim h = none ∧ committing s h = false ∧
      ∀ n claiming, PortFits (passedPort n (s.port h)) claiming (!claiming) (s.attached h) := by
  obtain ⟨hup, hignoring⟩ := up_of_listens hlistens
  have hfits := (portKept_iff s h).mp (hs h)
  obtain ⟨hclaiming, hidle⟩ := idle_of_portFits hfits hfree
  have hready := ready_of_portFits hfits hup hfree
  rw [hclaiming, hidle] at hfits
  exact ⟨hready, hignoring, by simpa using hclaiming, hidle, fun n _ => portFits_passedPort hfits hready hignoring n⟩

/-- R57: the port whose claim is taken listens, and awaits no commit. -/
theorem working_of_claim {s : State} {h : HostId} (hs : PortsKept s) (hwaits : (s.waitingClaim h).isSome = true) :
    (s.port h).ignoring = false ∧ committing s h = false := by
  have hfits := (portKept_iff s h).mp (hs h)
  refine ⟨(working_of_portFits hfits (.inl hwaits)).2, ?_⟩
  obtain ⟨-, hone, -⟩ := hfits
  simpa [hwaits] using hone

/-- R134: the port whose commit completes listens, and awaits no claim. -/
theorem working_of_commit {s : State} {h : HostId} (hs : PortsKept s) (hheld : s.edit.holder = some h)
    (hflight : s.edit.commitInFlight = true) : (s.port h).ignoring = false ∧ s.waitingClaim h = none := by
  have hfits := (portKept_iff s h).mp (hs h)
  have hcommits : committing s h = true := by simp [committing, hheld, hflight]
  refine ⟨(working_of_portFits hfits (.inr hcommits)).2, ?_⟩
  obtain ⟨-, hone, -⟩ := hfits
  simpa [hcommits] using hone

theorem othersKept_claimOff (h : HostId) (s : State) : OthersKept h s (claimOff h s) :=
  (othersKept_setWaiting h s none).trans (othersKept_of_eq rfl rfl rfl)

/-- R159: a reset leaves every port empty, IDLE or in DOWN, and nothing awaited of it. -/
theorem portsKept_deviceReset (s : State) : PortsKept (deviceReset s) := fun x => by
  have hport : (deviceReset s).port x = (s.port x).afterReset := by simp [deviceReset, State.port]
  have hwaiting : (deviceReset s).waitingClaim x = none := by
    show (Vector.replicate 4 none)[x.val] = none
    simp
  rw [portKept_iff, hport, hwaiting, deviceReset_attached, committing_of_not_inFlight (s := deviceReset s) rfl]
  unfold Port.afterReset
  split
  · exact portFits_empty (.inr rfl) ⟨rfl, rfl, rfl⟩ ⟨rfl, rfl⟩ (fun hno => nomatch hno) fun _ => rfl
  · exact portFits_empty (.inl rfl) ⟨rfl, rfl, rfl⟩ ⟨rfl, rfl⟩ (fun _ => rfl) fun _ => rfl

/-- R159: when a reset ends, each port is IDLE or in DOWN, and an IDLE one ignores the window open on it. -/
theorem portsKept_endReset (found : ResetEnd) {s : State} (hsampled : s.sampled = false) (hreset : ResetHeld s)
    (hs : PortsKept s) : PortsKept (endReset found s) := fun x => by
  have hfits := (portKept_iff s x).mp (hs x)
  have hport : (endReset found s).port x = (s.port x).endReset (hasHost found.openWindows x) := by simp [endReset]
  rw [portKept_iff, hport, endReset_waitingClaim, endReset_attached, committing_of_edit_eq (endReset_edit s found)]
  unfold Port.endReset
  split
  · exact hfits
  · next hup =>
    have hidle := ((hreset hsampled).2 x).resolve_right hup
    obtain ⟨hworking, hone, hanswer, hflags, -, hreceiving, hprior, hbuffer, hdown⟩ := hfits
    exact ⟨hworking, hone, hanswer, hflags, fun _ => hidle, hreceiving, hprior, hbuffer, hdown⟩

theorem portsKept_of_effect {c : Instr} {s t : State} (ht : Effect c s t) (hreset : ResetHeld s) (hs : PortsKept s) :
    PortsKept t := by
  cases ht with
  | nothing => exact hs
  | ignored h => exact portsKept_setPort rfl (portFits_endIgnored (hs h)) hs
  | window h p n _ hlistens hmove =>
    obtain ⟨hup, hignoring⟩ := up_of_listens hlistens
    exact portsKept_of_eq (s := s.setPort h p) rfl rfl rfl rfl
      (portsKept_setPort rfl (portFits_windowMove (hs h) hup hignoring hmove) hs)
  | taken i h n v a _ _ hlistens hfree htakes =>
    obtain ⟨hready, hignoring, hclaiming, hidle, -⟩ := ready_of_taken hs hlistens hfree
    obtain ⟨-, -, -, hwaiting, -, hports, -, -, -⟩ := blockFrame_of_takes htakes
    have hcommitting := committing_of_takes htakes hidle
    refine portsKept_answerRequest (s := s) a ?_ (fun x _ => hcommitting x) ?_ ((hcommitting h).trans hidle) ?_ hs
    · exact (othersKept_setPort h s _).trans (othersKept_of_takes htakes)
    · exact (congrArg (fun w => w[h]) hwaiting).trans hclaiming
    · have hport : v.port h = (s.setPort h (passedPort n (s.port h))).port h := congrArg (fun w => w[h]) hports
      rw [hport, State.setPort_port_self, passedPort_ignoring hready, hignoring]
  | claim h n choice _ hlistens hfree =>
    obtain ⟨-, -, -, hidle, hpassed⟩ := ready_of_taken hs hlistens hfree
    refine portsKept_of_others (h := h) ((othersKept_setPort h s _).trans (othersKept_setWaiting h _ _))
      (fun _ _ => rfl) ?_ hs
    have hidle' : committing ((s.setPort h (passedPort n (s.port h))).setWaiting h (some choice)) h = false := hidle
    rw [State.setWaiting_waitingClaim_self, State.setWaiting_port, State.setPort_port_self, hidle']
    exact hpassed n true
  | commitBegun h n _ hlistens hfree hheld =>
    obtain ⟨-, -, hclaiming, -, hpassed⟩ := ready_of_taken hs hlistens hfree
    refine portsKept_of_others (h := h) ((othersKept_setPort h s _).trans (.trans
      (othersKept_of_eq rfl rfl rfl) (othersKept_setEditState h _ _))) (fun x hx => ?_) ?_ hs
    · rw [committing_of_holder_ne (holder_ne_of_ne hheld hx), committing_of_holder_ne]
      exact holder_ne_of_ne hheld hx
    · have hcommits : committing (beginCommit h (s.setPort h (passedPort n (s.port h)))) h = true := by
        show (s.edit.holder == some h && true) = true
        simp [hheld]
      have hport : (beginCommit h (s.setPort h (passedPort n (s.port h)))).port h = passedPort n (s.port h) :=
        State.setPort_port_self s h _
      have hwaiting : (beginCommit h (s.setPort h (passedPort n (s.port h)))).waitingClaim h = none := hclaiming
      have hattached : (beginCommit h (s.setPort h (passedPort n (s.port h)))).attached h = s.attached h :=
        setEditState_attached h h .commit _
      rw [hcommits, hport, hwaiting, hattached]
      exact hpassed n false
  | claimRefused h a _ hwaits =>
    obtain ⟨hignoring, hidle⟩ := working_of_claim hs hwaits
    exact portsKept_answerRequest (s := s) a (othersKept_claimOff h s) (fun _ _ => rfl)
      (claimOff_waitingClaim_self h s) hidle hignoring hs
  | claimIssued h i k a _ hwaits =>
    obtain ⟨hignoring, hidle⟩ := working_of_claim hs hwaits
    have hcommitting (x : HostId) : committing (issue h i k (claimOff h s)) x = committing s x :=
      committing_of_edit_eq (by simp) x
    refine portsKept_answerRequest (s := s) a ((othersKept_claimOff h s).trans (othersKept_of_eq ?_ ?_ ?_))
      (fun x _ => hcommitting x) ?_ ((hcommitting h).trans hidle) ?_ hs <;> simp [hignoring]
  | conflict h p tg _ hheld hflight =>
    obtain ⟨hignoring, hclaiming⟩ := working_of_commit hs hheld hflight
    refine portsKept_answered (s := s) _ (.trans (othersKept_of_eq rfl rfl rfl) (othersKept_setEditState h _ _))
      (fun x hx => ?_) hclaiming (committing_of_not_inFlight rfl h) hignoring hs
    rw [committing_of_not_inFlight rfl, committing_of_holder_ne (holder_ne_of_ne hheld hx)]
  | applied h _ hheld hflight =>
    obtain ⟨hignoring, hclaiming⟩ := working_of_commit hs hheld hflight
    have hended (x : HostId) : committing (recomputeAtn (endSession h (applyAll s.edit.staged s))) x = false :=
      committing_of_not_inFlight (by simp [endSession, EditUnit.reset]) x
    refine portsKept_answered (s := s) _ (.trans (u := applyAll s.edit.staged s) (othersKept_of_eq ?_ ?_ ?_) ?_)
      (fun x hx => ?_) ?_ (hended h) ?_ hs
    · simp
    · simp
    · simp
    · exact (othersKept_setEditState h .none ((applyAll s.edit.staged s).setEdit EditUnit.reset)).trans
        (othersKept_of_eq (by simp [endSession]) (by simp [endSession]) (by simp [endSession]))
    · rw [hended, committing_of_holder_ne (holder_ne_of_ne hheld hx)]
    · simpa using hclaiming
    · simpa using hignoring
  | idleExpired h _ hheld hflight =>
    refine portsKept_of_same (s := s) (by simp) (by simp) (fun x => ?_) (fun x => ?_) hs
    · rw [committing_of_not_inFlight hflight, committing_of_not_inFlight]
      simp [endSession, EditUnit.reset]
    · have hended : (endSession h s).attached x = s.attached x := setEditState_attached h x .none _
      simp [hended]
  | released h =>
    refine portsKept_of_others (othersKept_release h s) (fun x hx => ?_) ?_ hs
    · rw [committing, committing, release_edit]
      split
      · next hheld => rw [beq_false_of_ne (holder_ne_of_ne hheld hx)]; rfl
      · rfl
    · have hport : (release h s).port h = (s.port h).goDown := by
        rw [release_port, State.setPort_port_self]
      have hwaiting : (release h s).waitingClaim h = none := by
        rw [release_waitingClaim, State.setWaiting_waitingClaim_self]
      have hattached : (release h s).attached h = false := by
        rw [State.attached, release_host, State.setHost_host_self]
        rfl
      have hidle : committing (release h s) h = false := by
        rw [committing, release_edit]
        split
        · rfl
        · next hother => rw [beq_false_of_ne hother, Bool.false_and]
      rw [hport, hwaiting, hattached, hidle]
      exact portFits_empty (.inr rfl) ⟨rfl, rfl, rfl⟩ ⟨rfl, rfl⟩ (fun hyes => nomatch hyes) fun _ => rfl
  | deasserted h o _ hdown =>
    have hfits := (portKept_iff s h).mp (hs h)
    obtain ⟨hclaiming, hidle⟩ := idle_of_portFits hfits (by simp [hdown])
    refine portsKept_setPort rfl ?_ hs
    rw [hclaiming, hidle]
    exact portFits_empty (.inl rfl) ⟨rfl, rfl, rfl⟩ ⟨rfl, rfl⟩ (fun _ => rfl) fun hno => nomatch hno
  | deviceReset => exact portsKept_deviceReset s
  | resetEnded found _ hsampled => exact portsKept_endReset found hsampled hreset hs
  | leaseExpired | settling | edge => exact portsKept_of_eq (by simp) (by simp) (by simp) (by simp) hs

theorem portsKept_tick {s : State} (hs : PortsKept s) : PortsKept (tick s) := by
  rw [tick_frame]
  exact portsKept_of_eq rfl rfl rfl rfl hs

/-- Settles O58: the edit unit and the ports, effect by effect; that no edit command finds a commit in flight of its own
host is what the ports add to the edit unit. -/
theorem sessionPortsAndClaimsAgree : Obligations.SessionPortsAndClaimsAgree := by
  intro s t hreset hs ht
  refine (kept_of_step (P := fun s => ResetHeld s ∧ EditKept s ∧ PortsKept s) (fun s q h => ?_) (fun s h => ?_)
    (fun c s t ht h => ?_) ⟨hreset, hs⟩ ht).2
  · obtain ⟨hreset, hedit, hports⟩ := h
    exact ⟨fun hno => ⟨atReset_of_ports rfl (hreset hno).1, (hreset hno).2⟩, hedit, hports⟩
  · obtain ⟨hreset, hedit, hports⟩ := h
    refine ⟨resetHeld_tick hreset, ?_, portsKept_tick hports⟩
    rw [tick_frame]
    exact editKept_of_eq rfl rfl hedit
  · obtain ⟨hreset, hedit, hports⟩ := h
    refine ⟨resetHeld_of_effect ht hreset, editKept_of_effect ht (fun x hfree => ?_) hedit,
      portsKept_of_effect ht hreset hports⟩
    exact (idle_of_portFits ((portKept_iff s x).mp (hports x)) hfree).2

end Sys2Proof.Proofs
end

section
/-! PROOFS. One source's record and its live tickets: the relations of R1 to R21 between them on the values they read,
kept by every change that an operation makes of the record, the tickets or the attached hosts. -/

namespace Sys2Proof.Proofs

open Sys2Proof.Machine Sys2Proof.Stated Sys2Proof.Safety

/-- What the invariant says of source `i` alone: its record `r`, its live tickets, in any order, and the attached
hosts. -/
structure SourceFits (i : SourceId) (live : List Ticket) (attached : HostId → Bool) (r : Source) : Prop where
  config : ConfigKept i r
  runtime : RuntimeKept i r
  state : StateKept i r
  owed : OwedInHostSet r
  markers : r.config.mode = .each → ∀ h, (r.markerOf h).isHeld = live.any fun t => t.host == h
  counts : r.config.mode = .one → kindOf i ≠ .posted →
    r.pendingCount + (live.map Ticket.coveredCount).sum ≤ 15 ∧
    (r.config.trigger.isEdge = false → r.pendingCount + (live.map Ticket.coveredCount).sum ≤ 1)
  queues : r.config.mode = .one → kindOf i = .posted →
    r.argQueue.length + live.countP (fun t => t.argument.isSome) ≤ 4
  detached : ∀ h, attached h = false → r.markerOf h = .clear
  covers : kindOf i = .posted ∨ r.config.mode = .each → ∀ t ∈ live, t.coveredCount = 1
  alone : live.Pairwise fun t u => r.config.mode = .each ∧ t.host ≠ u.host

section Record

variable {i : SourceId} {live : List Ticket} {attached : HostId → Bool} {r : Source}

/-- The order of the tickets does not matter. -/
theorem SourceFits.perm {live' : List Ticket} (hr : SourceFits i live attached r) (hperm : live.Perm live') :
    SourceFits i live' attached r where
  config := hr.config
  runtime := hr.runtime
  state := hr.state
  owed := hr.owed
  markers hmode h := (hr.markers hmode h).trans hperm.any_eq
  counts hmode hkind := by
    rw [← (hperm.map Ticket.coveredCount).sum_eq]
    exact hr.counts hmode hkind
  queues hmode hkind := by
    rw [← hperm.countP_eq]
    exact hr.queues hmode hkind
  detached := hr.detached
  covers hone t ht := hr.covers hone t (hperm.mem_iff.mpr ht)
  alone := hperm.pairwise hr.alone fun htu => ⟨htu.1, htu.2.symm⟩

/-- Fewer detached hosts ask for less. -/
theorem SourceFits.attach {attached' : HostId → Bool} (hr : SourceFits i live attached r)
    (hmore : ∀ h, attached h = true → attached' h = true) : SourceFits i live attached' r :=
  { hr with detached := fun h hno => hr.detached h (Bool.eq_false_iff.mpr fun hyes => by simp [hmore h hyes] at hno) }

theorem mode_one_or_each (r : Source) : r.config.mode = .one ∨ r.config.mode = .each := by
  cases r.config.mode <;> simp

theorem not_each_of_one {P : Prop} (hone : r.config.mode = .one) (heach : r.config.mode = .each) : P := by
  rw [hone] at heach
  cases heach

/-! ## Counts and queues of a ONE-mode source (R12, R13, R18) -/

/-- An ARMED counted source counts an occurrence, or loses it. -/
theorem SourceFits.setPending (hr : SourceFits i live attached r) (harmed : r.state = .armed)
    (hmode : r.config.mode = .one) (hkind : kindOf i ≠ .posted) (n : Nat) (mark : Bool)
    (hcap : n + (live.map Ticket.coveredCount).sum ≤ 15)
    (hlevel : r.config.trigger.isEdge = false → n + (live.map Ticket.coveredCount).sum ≤ 1) :
    SourceFits i live attached { r with pendingCount := n, overflowMark := mark } :=
  { hr with
    runtime := by
      obtain ⟨hone, -, -, hqueue, hattempts⟩ := hr.runtime
      exact ⟨hone, fun heach => not_each_of_one hmode heach, fun hposted => absurd hposted hkind, hqueue, hattempts⟩
    state := stateKept_of_armed harmed
    counts := fun _ _ => ⟨hcap, hlevel⟩ }

/-- An ARMED posted source in ONE mode has another queue. -/
theorem SourceFits.setQueue (hr : SourceFits i live attached r) (harmed : r.state = .armed)
    (hmode : r.config.mode = .one) (hkind : kindOf i = .posted) (q : List Word)
    (hcap : q.length + live.countP (fun t => t.argument.isSome) ≤ 4) :
    SourceFits i live attached { r with argQueue := q } :=
  { hr with
    runtime := by
      obtain ⟨hone, -, hcount, -, hattempts⟩ := hr.runtime
      exact ⟨hone, fun heach => not_each_of_one hmode heach, hcount, fun hother => absurd hkind hother, hattempts⟩
    state := stateKept_of_armed harmed
    queues := fun _ _ => hcap }

/-- Another attempt count of an ARMED source in ONE mode (R4). -/
theorem SourceFits.setAttempts (hr : SourceFits i live attached r) (harmed : r.state = .armed)
    (hmode : r.config.mode = .one) {n : Nat} (hn : n ≤ 7) : SourceFits i live attached { r with attempts := n } :=
  { hr with
    runtime := by
      obtain ⟨hone, -, hcount, hqueue, -, hattempts⟩ := hr.runtime
      exact ⟨hone, fun heach => not_each_of_one hmode heach, hcount, hqueue, hn, hattempts⟩
    state := stateKept_of_armed harmed }

/-! ## Markers of an EACH-mode source (R14, R16, R21) -/

/-- An ARMED EACH-mode source owes more: attached hosts of host_set, each holding a ticket as before. -/
theorem SourceFits.mapMarkers (hr : SourceFits i live attached r) (harmed : r.state = .armed)
    (hmode : r.config.mode = .each) (f : HostId → Marker → Marker)
    (hf : ∀ h, f h (r.markerOf h) = r.markerOf h ∨
      (hasHost r.config.hostSet h = true ∧ attached h = true ∧ (f h (r.markerOf h)).isHeld = (r.markerOf h).isHeld)) :
    SourceFits i live attached (r.mapMarkers f) :=
  { hr with
    runtime := by
      obtain ⟨-, heach, hrest⟩ := hr.runtime
      exact ⟨fun hone => not_each_of_one hone hmode, heach, hrest⟩
    state := stateKept_of_armed harmed
    owed := fun h hout => by
      rw [markerOf_mapMarkers]
      rcases hf h with heq | ⟨hin, -, -⟩
      · rw [heq]
        exact hr.owed h hout
      · rw [mapMarkers_config, hin] at hout
        cases hout
    markers := fun _ h => by
      rw [markerOf_mapMarkers]
      rcases hf h with heq | ⟨-, -, hheld⟩
      · rw [heq]
        exact hr.markers hmode h
      · rw [hheld]
        exact hr.markers hmode h
    detached := fun h hno => by
      rw [markerOf_mapMarkers]
      rcases hf h with heq | ⟨-, hyes, -⟩
      · rw [heq]
        exact hr.detached h hno
      · rw [hno] at hyes
        cases hyes }

theorem isHeld_mark (m : Marker) : m.mark.isHeld = m.isHeld := by cases m <;> rfl

theorem SourceFits.markHosts {s : State} (hr : SourceFits i live s.attached r) (harmed : r.state = .armed)
    (hmode : r.config.mode = .each) (also : HostId → Bool) :
    SourceFits i live s.attached (markHosts s also r) := by
  refine hr.mapMarkers harmed hmode _ fun h => ?_
  split
  · next hmarks =>
    simp only [Bool.and_eq_true] at hmarks
    obtain ⟨⟨hin, hattached⟩, -⟩ := hmarks
    exact .inr ⟨hin, hattached, isHeld_mark _⟩
  · exact .inl rfl

theorem SourceFits.oweClear {s : State} (hr : SourceFits i live s.attached r) (harmed : r.state = .armed)
    (hmode : r.config.mode = .each) (only : HostId → Bool) :
    SourceFits i live s.attached (oweClear s only r) := by
  refine hr.mapMarkers harmed hmode _ fun h => ?_
  split
  · next howes =>
    simp only [Bool.and_eq_true, beq_iff_eq] at howes
    obtain ⟨⟨⟨hin, hattached⟩, -⟩, hclear⟩ := howes
    exact .inr ⟨hin, hattached, by rw [hclear]; rfl⟩
  · exact .inl rfl

/-- R19: a post's word in the mailbox. -/
theorem SourceFits.setMailbox (hr : SourceFits i live attached r) (hkind : kindOf i = .posted)
    (hmode : r.config.mode = .each) (w : Word) : SourceFits i live attached { r with mailbox := w } :=
  { hr with
    runtime := by
      obtain ⟨-, heach, hcount, -, hattempts⟩ := hr.runtime
      exact ⟨fun hone => not_each_of_one hone hmode, heach, hcount, fun hother => absurd hkind hother, hattempts⟩ }

/-- Another attempt count of a host of an ARMED EACH-mode source (R4). -/
theorem SourceFits.setAttemptsOf (hr : SourceFits i live attached r) (harmed : r.state = .armed)
    (hmode : r.config.mode = .each) (h : HostId) {n : Nat} (hn : n ≤ 7) :
    SourceFits i live attached (r.setAttemptsOf h n) :=
  { hr with
    runtime := by
      obtain ⟨-, heach, hcount, hqueue, hattempts, hattemptsOf⟩ := hr.runtime
      refine ⟨fun hone => not_each_of_one hone hmode, heach, hcount, hqueue, hattempts, fun x => ?_⟩
      rw [attemptsOf_setAttemptsOf]
      split
      · exact hn
      · exact hattemptsOf x
    state := stateKept_of_armed harmed }

/-- R113, R116, R119: what is owed to a detached host is cleared. -/
theorem SourceFits.clearOwed {attached' : HostId → Bool} {h : HostId} (hr : SourceFits i live attached r)
    (hfree : ∀ t ∈ live, t.host ≠ h) (hothers : ∀ x, x ≠ h → attached' x = attached x) :
    SourceFits i live attached'
      (if r.config.mode = .each ∧ r.markerOf h = .owed then r.setMarker h .clear else r) := by
  have hothersClear (x : HostId) (hx : x ≠ h) (hno : attached' x = false) : r.markerOf x = .clear :=
    hr.detached x ((hothers x hx).symm.trans hno)
  split
  · next howed =>
    obtain ⟨hmode, howed⟩ := howed
    exact
      { hr with
        runtime := by
          obtain ⟨-, hrest⟩ := hr.runtime
          exact ⟨fun hone => not_each_of_one hone hmode, hrest⟩
        state := by
          obtain ⟨hidle, hrest⟩ := hr.state
          refine ⟨fun hother => ?_, hrest⟩
          obtain ⟨hpending, hmark, hqueue, hmarkers⟩ := hidle hother
          refine ⟨hpending, hmark, hqueue, fun x => ?_⟩
          rw [markerOf_setMarker]
          split
          · exact .inl rfl
          · exact hmarkers x
        owed := fun x hout => by
          rw [markerOf_setMarker]
          split
          · exact .inl rfl
          · exact hr.owed x hout
        markers := fun _ x => by
          rw [markerOf_setMarker]
          split
          · next heq =>
            subst heq
            rw [← hr.markers hmode, howed]
            rfl
          · exact hr.markers hmode x
        detached := fun x hno => by
          rw [markerOf_setMarker]
          split
          · rfl
          · next hx => exact hothersClear x (Ne.symm hx) hno }
  · next hnot =>
    refine { hr with detached := fun x hno => ?_ }
    by_cases hx : x = h
    · subst hx
      rcases mode_one_or_each r with hmode | hmode
      · obtain ⟨hone, -⟩ := hr.runtime
        obtain ⟨hmarkers, -⟩ := hone hmode
        exact (hmarkers x).1
      · have hheld : (r.markerOf x).isHeld = false := by
          rw [hr.markers hmode, List.any_eq_false]
          exact fun t ht => by simpa using hfree t ht
        cases hmarker : r.markerOf x with
        | clear => rfl
        | owed => exact absurd ⟨hmode, hmarker⟩ hnot
        | held => rw [hmarker] at hheld; cases hheld
        | heldOwed => rw [hmarker] at hheld; cases hheld
    · exact hothersClear x hx hno

/-! ## The end of a ticket (R80 to R92, R118) -/

section Ended

variable {t : Ticket} (hr : SourceFits i (t :: live) attached r)
include hr

/-- In ONE mode a record fits without the ticket: what it covered has left the source. -/
theorem SourceFits.ended_one (hmode : r.config.mode = .one) : SourceFits i live attached r :=
  { hr with
    markers := fun heach => not_each_of_one hmode heach
    counts := fun _ hkind => by
      obtain ⟨hcap, hlevel⟩ := hr.counts hmode hkind
      simp only [List.map_cons, List.sum_cons] at hcap hlevel
      exact ⟨by omega, fun hedge => by have := hlevel hedge; omega⟩
    queues := fun _ hkind => by
      have hcap := hr.queues hmode hkind
      rw [List.countP_cons] at hcap
      omega
    covers := fun hone u hu => hr.covers hone u (List.mem_cons_of_mem t hu)
    alone := hr.alone.of_cons }

/-- In EACH mode the holder's marker is HELD or HELD_OWED while its ticket lives, and so the holder is attached. -/
theorem SourceFits.holder_held (hmode : r.config.mode = .each) : (r.markerOf t.host).isHeld = true := by
  rw [hr.markers hmode]
  simp

theorem SourceFits.holder_attached (hmode : r.config.mode = .each) : attached t.host ≠ false := fun hno => by
  have hheld := hr.holder_held hmode
  rw [hr.detached _ hno] at hheld
  cases hheld

/-- In EACH mode the ticket's end makes the holder's marker CLEAR, or OWED in an ARMED source's host_set. -/
theorem SourceFits.ended_each (hmode : r.config.mode = .each) {m : Marker}
    (hm : m = .clear ∨ (m = .owed ∧ r.state = .armed ∧ hasHost r.config.hostSet t.host = true)) :
    SourceFits i live attached (r.setMarker t.host m) := by
  have hattached := hr.holder_attached hmode
  have halone := hr.alone
  rw [List.pairwise_cons] at halone
  exact
    { hr with
      runtime := by
        obtain ⟨-, hrest⟩ := hr.runtime
        exact ⟨fun hone => not_each_of_one hone hmode, hrest⟩
      state := by
        rcases hm with rfl | ⟨-, harmed, -⟩
        · exact stateKept_of_move hr.state (.cleared t.host)
        · exact stateKept_of_armed harmed
      owed := fun x hout => by
        rw [markerOf_setMarker]
        split
        · next heq =>
          subst heq
          rcases hm with rfl | ⟨-, -, hin⟩
          · exact .inl rfl
          · rw [setMarker_config, hin] at hout
            cases hout
        · exact hr.owed x hout
      markers := fun _ x => by
        rw [markerOf_setMarker]
        split
        · next heq =>
          subst heq
          have hnone : (live.any fun u => u.host == t.host) = false :=
            List.any_eq_false.mpr fun u hu => by simpa using ((halone.1 u hu).2).symm
          rw [hnone]
          rcases hm with rfl | ⟨rfl, -, -⟩ <;> rfl
        · next hx =>
          rw [hr.markers hmode, List.any_cons, beq_false_of_ne hx, Bool.false_or]
      counts := fun hone => not_each_of_one hone hmode
      queues := fun hone => not_each_of_one hone hmode
      detached := fun x hno => by
        rw [markerOf_setMarker]
        split
        · next heq => exact absurd (heq ▸ hno) hattached
        · exact hr.detached x hno
      covers := fun hone u hu => hr.covers hone u (List.mem_cons_of_mem t hu)
      alone := hr.alone.of_cons }

/-- R81. -/
theorem SourceFits.consumeWork (harmed : r.state = .armed) : SourceFits i live attached (consumeWork t.host r) := by
  unfold Machine.consumeWork
  split
  · next hmode => exact (hr.ended_one hmode).setAttempts harmed hmode (Nat.zero_le 7)
  · next hmode =>
    refine SourceFits.setAttemptsOf (hr.ended_each hmode ?_) harmed hmode t.host (Nat.zero_le 7)
    have hheld := hr.holder_held hmode
    cases hmarker : r.markerOf t.host with
    | clear => rw [hmarker] at hheld; cases hheld
    | owed => rw [hmarker] at hheld; cases hheld
    | held => exact .inl rfl
    | heldOwed =>
      refine .inr ⟨rfl, harmed, eq_true_of_ne_false fun hout => ?_⟩
      rcases hr.owed t.host hout with hclear | hclear <;> rw [hmarker] at hclear <;> cases hclear

/-- R83. -/
theorem SourceFits.returnWork (harmed : r.state = .armed) (hsource : t.source = i) :
    SourceFits i live attached (returnWork t r) := by
  subst hsource
  unfold Machine.returnWork
  split
  · next hmode =>
    split
    · next hkind =>
      have hcap := hr.queues hmode hkind
      refine (hr.ended_one hmode).setQueue harmed hmode hkind _ ?_
      rw [List.countP_cons] at hcap
      rw [List.length_append]
      cases hargument : t.argument
      · simp_all
      · simp_all
        omega
    · next hkind =>
      obtain ⟨hcap, hlevel⟩ := hr.counts hmode hkind
      simp only [List.map_cons, List.sum_cons, ← Nat.add_assoc] at hcap hlevel
      exact (hr.ended_one hmode).setPending harmed hmode hkind _ r.overflowMark hcap hlevel
  · next hmode =>
    refine hr.ended_each hmode ?_
    split
    · next hin => exact .inr ⟨rfl, harmed, hin⟩
    · exact .inl rfl

/-- R85. -/
theorem SourceFits.discardWork : SourceFits i live attached (discardWork t.host r) := by
  unfold Machine.discardWork
  split
  · next hmode => exact hr.ended_one hmode
  · next hmode => exact hr.ended_each hmode (.inl rfl)

/-- R118. -/
theorem SourceFits.releaseWork (harmed : r.state = .armed) (hsource : t.source = i) :
    SourceFits i live attached (releaseWork t r) := by
  unfold Machine.releaseWork
  split
  · exact hr.returnWork harmed hsource
  · next hmode => exact hr.ended_each hmode (.inl rfl)

end Ended

theorem raiseAttempts_le (n : Nat) (hn : n ≤ 7) : raiseAttempts n ≤ 7 := by
  unfold raiseAttempts Config.attemptsCap
  split <;> omega

/-- R88: an attempt counted. -/
theorem SourceFits.countAttempt (hr : SourceFits i live attached r) (harmed : r.state = .armed) (h : HostId) :
    SourceFits i live attached (countAttempt h r) := by
  obtain ⟨-, -, -, -, hattempts, hattemptsOf⟩ := hr.runtime
  unfold Machine.countAttempt
  split
  · next hmode => exact hr.setAttempts harmed hmode (raiseAttempts_le _ hattempts)
  · next hmode => exact hr.setAttemptsOf harmed hmode h (raiseAttempts_le _ (hattemptsOf h))

theorem isHeld_dropOwed (m : Marker) : m.dropOwed.isHeld = m.isHeld := by cases m <;> rfl

theorem dropOwed_eq_clear {m : Marker} (hm : m = .clear) : m.dropOwed = .clear := by rw [hm]; rfl

/-- R8. -/
theorem SourceFits.faultRuntime (hr : SourceFits i live attached r) (harmed : r.state = .armed)
    (hi : i ≠ noticeSource) : SourceFits i live attached (faultRuntime r) where
  config := by
    obtain ⟨hconfig, hvalid, henabled⟩ := hr.config
    exact ⟨hconfig, hvalid, fun _ hoff => (nomatch hoff), fun _ => henabled.mpr (by simp [harmed])⟩
  runtime := by
    obtain ⟨hone, heach, hcount, hqueue, hattempts⟩ := hr.runtime
    refine ⟨fun hmode => ?_, fun hmode => ?_, fun _ => ⟨rfl, rfl⟩, fun hkind => ⟨rfl, (hqueue hkind).2⟩, hattempts⟩
    · obtain ⟨hmarkers, hmailbox⟩ := hone hmode
      refine ⟨fun h => ⟨?_, (hmarkers h).2⟩, hmailbox⟩
      exact (markerOf_dropWaiting r h).trans (dropOwed_eq_clear (hmarkers h).1)
    · exact ⟨(heach hmode).1, rfl, rfl, rfl⟩
  state := stateKept_of_move hr.state (.abandoned r hi rfl)
  owed h _ := by
    have hmarker : (Machine.faultRuntime r).markerOf h = _ := markerOf_dropWaiting r h
    rw [hmarker]
    exact dropOwed_clear_or_held _
  markers hmode h := by
    have hmarker : (Machine.faultRuntime r).markerOf h = _ := markerOf_dropWaiting r h
    rw [hmarker, isHeld_dropOwed]
    exact hr.markers hmode h
  counts hmode hkind := by
    obtain ⟨hcap, hlevel⟩ := hr.counts hmode hkind
    show 0 + _ ≤ 15 ∧ (r.config.trigger.isEdge = false → 0 + _ ≤ 1)
    exact ⟨by omega, fun hedge => by have := hlevel hedge; omega⟩
  queues hmode hkind := by
    have hcap := hr.queues hmode hkind
    show 0 + _ ≤ 4
    omega
  detached h hno := (markerOf_dropWaiting r h).trans (dropOwed_eq_clear (hr.detached h hno))
  covers := hr.covers
  alone := hr.alone

/-- R10. -/
theorem SourceFits.rearmRuntime (hr : SourceFits i live attached r) (hfaulted : r.state = .faulted) :
    SourceFits i live attached (rearmRuntime r) :=
  { hr with
    config := by
      obtain ⟨hconfig, hvalid, henabled⟩ := hr.config
      exact ⟨hconfig, hvalid, fun _ hoff => (nomatch hoff), fun _ => henabled.mpr (by simp [hfaulted])⟩
    runtime := by
      obtain ⟨hone, heach, hcount, hqueue, -⟩ := hr.runtime
      refine ⟨fun hmode => ?_, fun hmode => ⟨rfl, (heach hmode).2⟩, hcount, hqueue, Nat.zero_le 7, fun h => ?_⟩
      · obtain ⟨hmarkers, hmailbox⟩ := hone hmode
        exact ⟨fun h => ⟨(hmarkers h).1, attemptsOf_clearAttempts r h⟩, hmailbox⟩
      · exact (attemptsOf_clearAttempts r h).trans_le (Nat.zero_le 7)
    state := stateKept_of_armed rfl }

/-! ## The issue of a ticket (R69 to R75) -/

section Issued

variable {t : Ticket} (hr : SourceFits i live attached r) (harmed : r.state = .armed)
include hr harmed

/-- R70, R73: the whole count of a ONE-mode source moves into the ticket. -/
theorem SourceFits.issued_counted (hnone : live = []) (hmode : r.config.mode = .one) (hkind : kindOf i ≠ .posted)
    (hcovered : t.coveredCount = r.pendingCount) :
    SourceFits i (t :: live) attached { r with pendingCount := 0, overflowMark := false } := by
  subst hnone
  obtain ⟨hcap, hlevel⟩ := hr.counts hmode hkind
  simp only [List.map_nil, List.sum_nil, Nat.add_zero] at hcap hlevel
  have hcleared := hr.setPending harmed hmode hkind 0 false (Nat.zero_le 15) fun _ => Nat.zero_le 1
  exact
    { hcleared with
      markers := fun heach => not_each_of_one hmode heach
      counts := fun _ _ => by simpa [hcovered] using ⟨hcap, hlevel⟩
      queues := fun _ hposted => absurd hposted hkind
      covers := fun hone => absurd hone (by simp [hkind, hmode])
      alone := List.pairwise_singleton _ t }

/-- R72: the head of the queue moves into the ticket. -/
theorem SourceFits.issued_posted (hnone : live = []) (hmode : r.config.mode = .one) (hkind : kindOf i = .posted)
    (hwaits : r.argQueue ≠ []) (hcovered : t.coveredCount = 1) :
    SourceFits i (t :: live) attached { r with argQueue := r.argQueue.drop 1 } := by
  subst hnone
  have hcap := hr.queues hmode hkind
  have hlength := List.length_pos_iff.mpr hwaits
  simp only [List.countP_nil, Nat.add_zero] at hcap
  have hdropped := hr.setQueue harmed hmode hkind (r.argQueue.drop 1) (by simp; omega)
  exact
    { hdropped with
      markers := fun heach => not_each_of_one hmode heach
      counts := fun _ hother => absurd hkind hother
      queues := fun _ _ => by
        simp only [List.length_drop, List.countP_cons, List.countP_nil]
        split <;> omega
      covers := fun _ u hu => by rwa [List.mem_singleton.mp hu]
      alone := List.pairwise_singleton _ t }

/-- R71, R74: what an EACH-mode source owed the host is held. -/
theorem SourceFits.issued_each (hmode : r.config.mode = .each) (howed : r.markerOf t.host = .owed)
    (hcovered : t.coveredCount = 1) : SourceFits i (t :: live) attached (r.setMarker t.host .held) := by
  have hothers : (live.any fun u => u.host == t.host) = false := by
    rw [← hr.markers hmode, howed]
    rfl
  exact
    { hr with
      runtime := by
        obtain ⟨-, hrest⟩ := hr.runtime
        exact ⟨fun hone => not_each_of_one hone hmode, hrest⟩
      state := stateKept_of_armed harmed
      owed := fun x hout => by
        rw [markerOf_setMarker]
        split
        · exact .inr rfl
        · exact hr.owed x hout
      markers := fun _ x => by
        rw [markerOf_setMarker, List.any_cons]
        split
        · next heq => rw [heq, beq_self_eq_true, Bool.true_or]; rfl
        · next hx => rw [beq_false_of_ne hx, Bool.false_or, hr.markers hmode]
      counts := fun hone => not_each_of_one hone hmode
      queues := fun hone => not_each_of_one hone hmode
      detached := fun x hno => by
        rw [markerOf_setMarker]
        split
        · next heq =>
          have hclear := hr.detached x hno
          rw [← heq, howed] at hclear
          cases hclear
        · exact hr.detached x hno
      covers := fun hone u hu => by
        rcases List.mem_cons.mp hu with rfl | hu
        · exact hcovered
        · exact hr.covers hone u hu
      alone := List.pairwise_cons.mpr ⟨fun u hu => ⟨hmode, by
        have hother := List.any_eq_false.mp hothers u hu
        simpa using Ne.symm (by simpa using hother)⟩, hr.alone⟩ }

end Issued

/-! ## A commit (R9, R137) -/

section Committed

variable {c : SourceConfig} (hr : SourceFits i live attached r)
  (hfree : live = [] ∨ (c.mode = r.config.mode ∧ edgeToLevel i r.config c = false))

theorem configFor_of_valid {i : SourceId} {c : SourceConfig} (hvalid : validSource i c = true) : configFor i c = c := by
  obtain ⟨enabled, mode, lane, rank, hostSet, handle, leaseMs, retryLimit, line, trigger, posters, echo⟩ := c
  simp only [validSource, Bool.and_eq_true, Bool.or_eq_true, beq_iff_eq] at hvalid
  obtain ⟨⟨-, hline⟩, hposters⟩ := hvalid
  unfold configFor
  cases hkind : kindOf i with
  | watch =>
    obtain ⟨rfl, rfl⟩ : posters = 0 ∧ echo = false := by simpa [hkind] using hposters
    rfl
  | posted =>
    obtain ⟨rfl, rfl⟩ : line = 0 ∧ trigger = .rise := by simpa [hkind] using hline
    rfl
  | notice =>
    obtain ⟨rfl, rfl⟩ : posters = 0 ∧ echo = false := by simpa [hkind] using hposters
    obtain ⟨rfl, rfl⟩ : line = 0 ∧ trigger = .rise := by simpa [hkind] using hline
    rfl

/-- The trigger of an occurrence-counting source that is no watch source is an edge (R2). -/
theorem isEdge_of_not_watch (hvalid : validSource i c = true) (hkind : kindOf i ≠ .watch) :
    c.trigger.isEdge = true := by
  simp only [validSource, Bool.and_eq_true, Bool.or_eq_true, beq_iff_eq] at hvalid
  obtain ⟨⟨-, hline⟩, -⟩ := hvalid
  obtain ⟨-, hrise⟩ := hline.resolve_left hkind
  rw [hrise]
  rfl

include hr

/-- R9: a ONE-mode source has an empty mailbox, and one that is no posted source, whatever the commit. -/
theorem SourceFits.mailbox_committed (hno : c.mode = .one ∨ kindOf i ≠ .posted) : (withConfig c r).mailbox = 0 := by
  obtain ⟨hone, -, -, hother, -⟩ := hr.runtime
  show (if changesMode r c = true then (0 : Word) else r.mailbox) = 0
  split
  · rfl
  · next hsame =>
    have hmodes : c.mode = r.config.mode := by simpa [changesMode] using hsame
    rcases hno with hmode | hkind
    · exact (hone (hmodes ▸ hmode)).2
    · exact (hother hkind).2

include hfree

/-- R9: what is held stays held under the new mode, since a mode changes without live tickets alone (R134). -/
theorem SourceFits.isHeld_committed (hmode : c.mode = .each) (h : HostId) :
    (r.markerOf h).isHeld = live.any fun t => t.host == h := by
  rcases mode_one_or_each r with hone | heach
  · have hnone : live = [] := hfree.resolve_right fun hsame => by
      rw [hmode, hone] at hsame
      exact nomatch hsame.1
    obtain ⟨hmarkers, -⟩ := hr.runtime.1 hone
    rw [hnone, (hmarkers h).1]
    rfl
  · exact hr.markers heach h

theorem SourceFits.dropOwed_committed (hmode : c.mode = .one) (h : HostId) : (r.markerOf h).dropOwed = .clear := by
  rcases mode_one_or_each r with hone | heach
  · obtain ⟨hmarkers, -⟩ := hr.runtime.1 hone
    exact dropOwed_eq_clear (hmarkers h).1
  · have hnone : live = [] := hfree.resolve_right fun hsame => by
      rw [hmode, heach] at hsame
      exact nomatch hsame.1
    have hheld := hr.markers heach h
    rw [hnone, List.any_nil] at hheld
    cases hmarker : r.markerOf h with
    | clear | owed => rfl
    | held | heldOwed => rw [hmarker] at hheld; cases hheld

/-- R12, R15 under the new configuration, for a count that is kept or cleared. -/
theorem SourceFits.counts_committed (hvalid : validSource i c = true) {n : Nat}
    (hn : n = 0 ∨ (n = r.pendingCount ∧ c.mode = r.config.mode ∧ edgeToLevel i r.config c = false))
    (hmode : c.mode = .one) (hkind : kindOf i ≠ .posted) :
    n + (live.map Ticket.coveredCount).sum ≤ 15 ∧
      (c.trigger.isEdge = false → n + (live.map Ticket.coveredCount).sum ≤ 1) := by
  have hsame (hmodes : c.mode = r.config.mode) (hedge : edgeToLevel i r.config c = false) :
      r.pendingCount + (live.map Ticket.coveredCount).sum ≤ 15 ∧
        (c.trigger.isEdge = false → r.pendingCount + (live.map Ticket.coveredCount).sum ≤ 1) := by
    obtain ⟨hcap, hlevel⟩ := hr.counts (hmodes ▸ hmode) hkind
    refine ⟨hcap, fun htrigger => hlevel ?_⟩
    by_cases hwatch : kindOf i = .watch
    · simpa [edgeToLevel, hwatch, hmode, ← hmodes, htrigger] using hedge
    · rw [isEdge_of_not_watch hvalid hwatch] at htrigger
      cases htrigger
  rcases hn with rfl | ⟨rfl, hmodes, hedge⟩
  · rcases hfree with rfl | ⟨hmodes, hedge⟩
    · simp
    · obtain ⟨hcap, hlevel⟩ := hsame hmodes hedge
      exact ⟨by omega, fun htrigger => by have := hlevel htrigger; omega⟩
  · exact hsame hmodes hedge

/-- R18 under the new configuration, for a queue that is kept or cleared. -/
theorem SourceFits.queues_committed {q : List Word} (hq : q = [] ∨ (q = r.argQueue ∧ c.mode = r.config.mode))
    (hmode : c.mode = .one) (hkind : kindOf i = .posted) :
    q.length + live.countP (fun t => t.argument.isSome) ≤ 4 := by
  rcases hq with rfl | ⟨rfl, hmodes⟩
  · rcases hfree with rfl | ⟨hmodes, -⟩
    · simp
    · have hcap := hr.queues (hmodes ▸ hmode) hkind
      rw [List.length_nil]
      omega
  · exact hr.queues (hmodes ▸ hmode) hkind

theorem SourceFits.covers_committed (hone : kindOf i = .posted ∨ c.mode = .each) : ∀ t ∈ live, t.coveredCount = 1 := by
  rcases hfree with rfl | ⟨hmodes, -⟩
  · exact fun _ ht => nomatch ht
  · exact hr.covers (hmodes ▸ hone)

theorem SourceFits.alone_committed : live.Pairwise fun t u => c.mode = .each ∧ t.host ≠ u.host := by
  rcases hfree with rfl | ⟨hmodes, -⟩
  · exact .nil
  · rw [hmodes]
    exact hr.alone

/-- R6, R9: the record that a commit clears. -/
theorem SourceFits.clearRuntime {s : State} (hvalid : validSource i c = true) (henabled : c.enabled = true)
    (hholds : ∀ h, s.holds i h = live.any fun t => t.host == h) (hattached : ∀ t ∈ live, attached t.host = true) :
    SourceFits i live attached (clearRuntime s i (withConfig c r)) := by
  have hmarker (h : HostId) : (Machine.clearRuntime s i (withConfig c r)).markerOf h =
      if c.mode = .each ∧ s.holds i h = true then .held else .clear := by
    simp [Machine.clearRuntime, Source.markerOf]
  have hattempts (h : HostId) : (Machine.clearRuntime s i (withConfig c r)).attemptsOf h = 0 :=
    attemptsOf_clearAttempts (withConfig c r) h
  exact
    { config := ⟨configFor_of_valid hvalid, hvalid, fun _ hoff => (nomatch hoff), fun _ => henabled⟩
      runtime := ⟨fun hmode => ⟨fun h => ⟨(hmarker h).trans (if_neg fun hheld => not_each_of_one hmode hheld.1),
          hattempts h⟩, hr.mailbox_committed (.inl hmode)⟩, fun _ => ⟨rfl, rfl, rfl, rfl⟩, fun _ => ⟨rfl, rfl⟩,
        fun hkind => ⟨rfl, hr.mailbox_committed (.inr hkind)⟩, Nat.zero_le 7,
        fun h => (hattempts h).trans_le (Nat.zero_le 7)⟩
      state := stateKept_of_armed rfl
      owed := fun h _ => by
        rw [hmarker]
        split
        · exact .inr rfl
        · exact .inl rfl
      markers := fun hmode h => by
        have hmode : c.mode = .each := hmode
        rw [hmarker, ← hholds]
        cases s.holds i h <;> simp [hmode, Marker.isHeld]
      counts := hr.counts_committed hfree hvalid (.inl rfl)
      queues := hr.queues_committed hfree (.inl rfl)
      detached := fun h hno => by
        rw [hmarker, if_neg]
        rintro ⟨-, hheld⟩
        rw [hholds, List.any_eq_true] at hheld
        obtain ⟨t, ht, heq⟩ := hheld
        have hyes := hattached t ht
        rw [beq_iff_eq.mp heq, hno] at hyes
        cases hyes
      covers := hr.covers_committed hfree
      alone := hr.alone_committed hfree }

/-- R9: the record of an ARMED source that keeps its runtime part. -/
theorem SourceFits.keepRuntime (hvalid : validSource i c = true) (henabled : c.enabled = true)
    (harmed : r.state = .armed) (hmodes : c.mode = r.config.mode) (hedge : edgeToLevel i r.config c = false) :
    SourceFits i live attached (keepRuntime (withConfig c r)) := by
  have hmarker (h : HostId) : (Machine.keepRuntime (withConfig c r)).markerOf h =
      if hasHost c.hostSet h = true then r.markerOf h else (r.markerOf h).dropOwed :=
    markerOf_mapMarkers _ _ h
  have hattempts (h : HostId) : (Machine.keepRuntime (withConfig c r)).attemptsOf h = 0 :=
    attemptsOf_clearAttempts (withConfig c r) h
  obtain ⟨hone, heach, hcount, hqueue, -⟩ := hr.runtime
  exact
    { config := ⟨configFor_of_valid hvalid, hvalid, fun _ hoff => absurd (harmed.symm.trans hoff) (by decide),
        fun _ => henabled⟩
      runtime := by
        refine ⟨fun hmode => ⟨fun h => ⟨?_, hattempts h⟩, hr.mailbox_committed (.inl hmode)⟩,
          fun hmode => ⟨rfl, (heach (hmodes ▸ hmode)).2⟩, hcount,
          fun hkind => ⟨(hqueue hkind).1, hr.mailbox_committed (.inr hkind)⟩, Nat.zero_le 7,
          fun h => (hattempts h).trans_le (Nat.zero_le 7)⟩
        obtain ⟨hmarkers, -⟩ := hone (hmodes ▸ hmode)
        rw [hmarker, (hmarkers h).1]
        split <;> rfl
      state := stateKept_of_armed harmed
      owed := fun h hout => by
        have hout : hasHost c.hostSet h = false := hout
        rw [hmarker, hout]
        exact dropOwed_clear_or_held _
      markers := fun hmode h => by
        rw [hmarker]
        split
        · exact hr.isHeld_committed hfree hmode h
        · rw [isHeld_dropOwed]
          exact hr.isHeld_committed hfree hmode h
      counts := hr.counts_committed hfree hvalid (.inr ⟨rfl, hmodes, hedge⟩)
      queues := hr.queues_committed hfree (.inr ⟨rfl, hmodes⟩)
      detached := fun h hno => by
        rw [hmarker, hr.detached h hno]
        split <;> rfl
      covers := hr.covers_committed hfree
      alone := hr.alone_committed hfree }

/-- R9: the record of a source that stays in OFF, or that a commit disables (R7): `r'` owes nothing and waits for
nothing. -/
theorem SourceFits.disabled {r' : Source} (hvalid : validSource i c = true) (hdisabled : c.enabled = false)
    (hconfig : r'.config = c) (hoff : r'.state = .off)
    (hwaits : r'.pendingCount = 0 ∧ r'.overflowMark = false ∧ r'.argQueue = [])
    (hattempts : r'.attempts = 0 ∧ ∀ h, r'.attemptsOf h = 0) (hmailbox : r'.mailbox = (withConfig c r).mailbox)
    (hmarker : ∀ h, r'.markerOf h = (r.markerOf h).dropOwed) : SourceFits i live attached r' := by
  obtain ⟨hpending, hmark, hqueue⟩ := hwaits
  obtain ⟨hattempts, hattemptsOf⟩ := hattempts
  have hmarkers (h : HostId) : r'.markerOf h = .clear ∨ r'.markerOf h = .held := by
    rw [hmarker]
    exact dropOwed_clear_or_held _
  exact
    { config := by
        rw [ConfigKept, hconfig, hdisabled, hoff]
        exact ⟨configFor_of_valid hvalid, hvalid, by simp⟩
      runtime := by
        rw [RuntimeKept, hconfig, hmailbox, hqueue, hpending, hmark, hattempts]
        exact ⟨fun hmode => ⟨fun h => ⟨(hmarker h).trans (hr.dropOwed_committed hfree hmode h), hattemptsOf h⟩,
            hr.mailbox_committed (.inl hmode)⟩, fun _ => ⟨rfl, rfl, rfl, rfl⟩, fun _ => ⟨rfl, rfl⟩,
          fun hkind => ⟨rfl, hr.mailbox_committed (.inr hkind)⟩, Nat.zero_le 7,
          fun h => (hattemptsOf h).trans_le (Nat.zero_le 7)⟩
      state := ⟨fun _ => ⟨hpending, hmark, hqueue, hmarkers⟩, fun _ => ⟨hattempts, hattemptsOf⟩,
        fun _ hfaulted => absurd (hoff.symm.trans hfaulted) (by decide)⟩
      owed := fun h _ => hmarkers h
      markers := fun hmode h => by
        rw [hmarker, isHeld_dropOwed]
        exact hr.isHeld_committed hfree (hconfig ▸ hmode) h
      counts := by
        rw [hconfig, hpending]
        exact hr.counts_committed hfree hvalid (.inl rfl)
      queues := by
        rw [hconfig, hqueue]
        exact hr.queues_committed hfree (.inl rfl)
      detached := fun h hno => by
        rw [hmarker]
        exact dropOwed_eq_clear (hr.detached h hno)
      covers := by
        rw [hconfig]
        exact hr.covers_committed hfree
      alone := by
        rw [hconfig]
        exact hr.alone_committed hfree }

/-- R137: a commit without a conflict. -/
theorem SourceFits.commitSource {s : State} (hvalid : validSource i c = true)
    (hholds : ∀ h, s.holds i h = live.any fun t => t.host == h) (hattached : ∀ t ∈ live, attached t.host = true) :
    SourceFits i live attached (commitSource s i c r) := by
  rcases commitSource_cases s i c r with ⟨henabled, heq⟩ | ⟨henabled, harmed, hmodes, hedge, heq⟩ |
    ⟨hdisabled, hoff, heq⟩ | ⟨hdisabled, _, heq⟩
  · rw [heq]
    exact hr.clearRuntime hfree hvalid henabled hholds hattached
  · rw [heq]
    exact hr.keepRuntime hfree hvalid henabled harmed hmodes hedge
  · rw [heq]
    obtain ⟨hidle, hattempts, -⟩ := hr.state
    obtain ⟨hpending, hmark, hqueue, hmarkers⟩ := hidle (by simp [hoff])
    refine hr.disabled hfree hvalid hdisabled rfl hoff ⟨hpending, hmark, hqueue⟩ (hattempts hoff) rfl fun h => ?_
    show r.markerOf h = _
    rcases hmarkers h with hmarker | hmarker <;> rw [hmarker] <;> rfl
  · rw [heq]
    exact hr.disabled hfree hvalid hdisabled rfl rfl ⟨rfl, rfl, rfl⟩ ⟨rfl, disableRuntime_attemptsOf _⟩ rfl
      (disableRuntime_markerOf (withConfig c r))

end Committed

end Record

/-- A source after a device reset, with no ticket. -/
theorem sourceFits_reset (i : SourceId) (attached : HostId → Bool) : SourceFits i [] attached Source.reset where
  config := by
    refine ⟨?_, ?_, by simp [Source.reset, SourceConfig.reset]⟩
    · unfold configFor
      cases kindOf i <;> rfl
    · simp [validSource, Source.reset, SourceConfig.reset]
  runtime := by
    have hmarker (h : HostId) : Source.reset.markerOf h = .clear := by simp [Source.reset, Source.markerOf]
    have hattempts (h : HostId) : Source.reset.attemptsOf h = 0 := by simp [Source.reset, Source.attemptsOf]
    exact ⟨fun _ => ⟨fun h => ⟨hmarker h, hattempts h⟩, rfl⟩, fun _ => ⟨rfl, rfl, rfl, rfl⟩, fun _ => ⟨rfl, rfl⟩,
      fun _ => ⟨rfl, rfl⟩, Nat.zero_le 7, fun h => (hattempts h).trans_le (Nat.zero_le 7)⟩
  state := stateKept_reset i
  owed h _ := .inl (by simp [Source.reset, Source.markerOf])
  markers heach := nomatch heach
  counts _ _ := ⟨Nat.zero_le 15, fun _ => Nat.zero_le 1⟩
  queues _ _ := Nat.zero_le 4
  detached h _ := by simp [Source.reset, Source.markerOf]
  covers _ _ ht := nomatch ht
  alone := .nil

end Sys2Proof.Proofs
end

section
/-! PROOFS. Every source's record and its live tickets, in a state: the relations of `SourceFits` kept by every
operation on the source table and the ticket table. -/

namespace Sys2Proof.Proofs

open Sys2Proof.Machine Sys2Proof.Stated Sys2Proof.Safety

/-! ## The live tickets -/

/-- The live tickets of source `i`, in slot order. -/
def ticketsFrom (s : State) (i : SourceId) : List Ticket := s.liveTickets.filter fun t => t.source == i

theorem mem_ticketsFrom {s : State} {i : SourceId} {t : Ticket} :
    t ∈ ticketsFrom s i ↔ t.source = i ∧ ∃ k, (s.slot k).ticket = some t := by
  simp [ticketsFrom, mem_liveTickets, and_comm]

theorem holds_eq_any (s : State) (i : SourceId) (h : HostId) :
    s.holds i h = (ticketsFrom s i).any fun t => t.host == h := by
  rw [State.holds, ticketsFrom, List.any_filter]

theorem heldArguments_eq_countP (s : State) (i : SourceId) :
    s.heldArguments i = (ticketsFrom s i).countP fun t => t.argument.isSome := by
  rw [State.heldArguments, ticketsFrom, List.countP_filter]
  exact List.countP_congr fun t _ => by simp [and_comm]

theorem sourceTicket_eq_head? (s : State) (i : SourceId) : s.sourceTicket i = (ticketsFrom s i).head? := by
  rw [State.sourceTicket, ticketsFrom, List.head?_filter]

theorem ticketsFrom_eq_nil {s : State} {i : SourceId} (hnone : s.sourceTicket i = none) : ticketsFrom s i = [] := by
  rwa [sourceTicket_eq_head?, List.head?_eq_none_iff] at hnone

theorem coveredBy_eq_sum {s : State} {i : SourceId} {live : List Ticket} (hlive : ticketsFrom s i = live)
    (halone : live.Pairwise fun _ _ => False) : s.coveredBy i = (live.map Ticket.coveredCount).sum := by
  rw [State.coveredBy, sourceTicket_eq_head?, hlive]
  match live, halone with
  | [], _ => rfl
  | [t], _ => simp
  | t :: u :: rest, halone => exact (List.rel_of_pairwise_cons halone (List.mem_cons_self)).elim

theorem ticketsFrom_of_slots_eq {s t : State} (h : t.slots = s.slots) (i : SourceId) :
    ticketsFrom t i = ticketsFrom s i := by
  rw [ticketsFrom, liveTickets_of_slots_eq h, ticketsFrom]

/-- The tickets in the slots are, in some order, those of one slot and those of the others. -/
theorem liveTickets_setSlot_perm (s : State) (k : SlotId) (y : Slot) :
    (s.setSlot k y).liveTickets.Perm (y.ticket.toList ++ (freeSlot k s).liveTickets) := by
  refine List.perm_iff_count.mpr fun t => ?_
  have hset := countP_liveTickets_setSlot s k y (· == t)
  have hfree := countP_liveTickets_setSlot s k { s.slot k with ticket := none } (· == t)
  simp only [List.count_eq_countP, List.countP_append, freeSlot]
  cases hticket : y.ticket <;> rw [hticket] at hset <;>
    simp only [Option.elim_none, Option.elim_some, Option.toList_none, Option.toList_some, List.countP_nil,
      List.countP_singleton] at hset hfree ⊢ <;> omega

theorem liveTickets_perm_freeSlot (s : State) (k : SlotId) :
    s.liveTickets.Perm ((s.slot k).ticket.toList ++ (freeSlot k s).liveTickets) := by
  have hself : s.setSlot k (s.slot k) = s := by
    have hslots : s.slots.set k (s.slot k) = s.slots := by simp [State.slot]
    rw [State.setSlot, hslots]
  have hperm := liveTickets_setSlot_perm s k (s.slot k)
  rwa [hself] at hperm

/-- Of one source: the ticket of slot `k`, if it is the source's, and the tickets of the other slots. -/
theorem ticketsFrom_perm_of_ticket {s : State} {k : SlotId} {t : Ticket} (hslot : (s.slot k).ticket = some t) :
    (ticketsFrom s t.source).Perm (t :: ticketsFrom (freeSlot k s) t.source) := by
  have hperm := (liveTickets_perm_freeSlot s k).filter fun u => u.source == t.source
  simpa [ticketsFrom, hslot] using hperm

theorem ticketsFrom_perm_of_other {s : State} {k : SlotId} {t : Ticket} (hslot : (s.slot k).ticket = some t)
    {i : SourceId} (hi : i ≠ t.source) : (ticketsFrom s i).Perm (ticketsFrom (freeSlot k s) i) := by
  have hperm := (liveTickets_perm_freeSlot s k).filter fun u => u.source == i
  simpa [ticketsFrom, hslot, hi.symm] using hperm

theorem ticketsFrom_setSlot_perm (s : State) (k : SlotId) (y : Slot) {t : Ticket} (ht : y.ticket = some t) :
    (ticketsFrom (s.setSlot k y) t.source).Perm (t :: ticketsFrom (freeSlot k s) t.source) := by
  have hperm := (liveTickets_setSlot_perm s k y).filter fun u => u.source == t.source
  simpa [ticketsFrom, ht] using hperm

theorem ticketsFrom_setSlot_perm_of_other (s : State) (k : SlotId) (y : Slot) {t : Ticket} (ht : y.ticket = some t)
    {i : SourceId} (hi : i ≠ t.source) : (ticketsFrom (s.setSlot k y) i).Perm (ticketsFrom (freeSlot k s) i) := by
  have hperm := (liveTickets_setSlot_perm s k y).filter fun u => u.source == i
  simpa [ticketsFrom, ht, hi.symm] using hperm

/-- A slot that is free already stays as it is. -/
theorem freeSlot_of_free {s : State} {k : SlotId} (hfree : (s.slot k).ticket = none) : freeSlot k s = s := by
  have hslot : { s.slot k with ticket := none } = s.slot k := by
    cases heq : s.slot k
    rw [heq] at hfree
    cases hfree
    rfl
  have hslots : s.slots.set k (s.slot k) = s.slots := by simp [State.slot]
  rw [freeSlot, hslot, State.setSlot, hslots]

/-! ## Every source -/

/-- Every source's record fits its live tickets and the attached hosts. -/
def SourcesFit (s : State) : Prop := ∀ i, SourceFits i (ticketsFrom s i) s.attached (s.source i)

theorem sourcesFit_of_eq {s t : State} (hsources : t.sources = s.sources) (hslots : t.slots = s.slots)
    (hattached : ∀ h, t.attached h = s.attached h) (hs : SourcesFit s) : SourcesFit t := fun i => by
  have hsource : t.source i = s.source i := congrArg (fun v => v[i]) hsources
  rw [ticketsFrom_of_slots_eq hslots, hsource, funext hattached]
  exact hs i

theorem sourcesFit_setSource {s : State} {i : SourceId} {r : Source} (hs : SourcesFit s)
    (hr : SourceFits i (ticketsFrom s i) s.attached r) : SourcesFit (s.setSource i r) := fun j => by
  have hlive : ticketsFrom (s.setSource i r) j = ticketsFrom s j := rfl
  rw [hlive, State.setSource_source]
  split
  · next heq => exact heq ▸ hr
  · exact hs j

section Operations

variable {s : State} (hs : SourcesFit s)
include hs

/-- A ONE-mode source's covered occurrences, as its one ticket has them (R12, R69). -/
theorem coveredBy_of_fit {i : SourceId} (hmode : (s.source i).config.mode = .one) :
    s.coveredBy i = ((ticketsFrom s i).map Ticket.coveredCount).sum :=
  coveredBy_eq_sum rfl ((hs i).alone.imp fun htu => not_each_of_one hmode htu.1)

theorem sourcesFit_levelCheck (i : SourceId) : SourcesFit (levelCheck i s) := by
  rcases levelCheck_cases i s with heq | ⟨harmed, hactive, hmode, hpending, hnone, heq⟩ |
    ⟨harmed, hactive, hmode, heq⟩
  · rw [heq]
    exact hs
  · rw [heq]
    have hwatch : kindOf i ≠ .posted := fun hposted => by simp [levelActive, hposted] at hactive
    refine sourcesFit_setSource hs
      ((hs i).setPending harmed hmode hwatch 1 (s.source i).overflowMark ?_ fun _ => ?_) <;>
      simp [ticketsFrom_eq_nil hnone]
  · rw [heq]
    exact sourcesFit_setSource hs ((hs i).oweClear harmed hmode _)

theorem sourcesFit_levelCheckFor (h : HostId) (i : SourceId) : SourcesFit (levelCheckFor h i s) := by
  unfold levelCheckFor
  dsimp only
  split
  · next hruns =>
    obtain ⟨harmed, -, hmode⟩ := hruns
    exact sourcesFit_setSource hs ((hs i).oweClear harmed hmode _)
  · exact hs

/-- R12, R13: an occurrence on an ARMED counted source whose occurrences are edges. -/
theorem sourceFits_countOccurrence {i : SourceId} (harmed : (s.source i).state = .armed)
    (hmode : (s.source i).config.mode = .one) (hkind : kindOf i ≠ .posted)
    (hedge : (s.source i).config.trigger.isEdge = true) :
    SourceFits i (ticketsFrom s i) s.attached (countOccurrence (s.coveredBy i) (s.source i)).1 := by
  have hcovered := coveredBy_of_fit hs hmode
  obtain ⟨hcap, -⟩ := (hs i).counts hmode hkind
  have hnever {P : Prop} (hlevel : (s.source i).config.trigger.isEdge = false) : P := by
    rw [hedge] at hlevel
    cases hlevel
  rcases countOccurrence_cases (s.coveredBy i) (s.source i) with ⟨hroom, heq⟩ | ⟨-, -, heq⟩ | ⟨-, -, heq⟩
  · rw [heq]
    rw [hcovered] at hroom
    exact (hs i).setPending harmed hmode hkind _ (s.source i).overflowMark (by omega) hnever
  · rw [heq]
    exact hs i
  · rw [heq]
    exact (hs i).setPending harmed hmode hkind (s.source i).pendingCount true hcap hnever

theorem sourcesFit_takeNotice : SourcesFit (takeNotice s) := by
  rcases takeNotice_cases s with ⟨-, heq⟩ | ⟨harmed, hmode, heq⟩ | ⟨harmed, hmode, heq⟩
  · rw [heq]
    exact hs
  · rw [heq]
    obtain ⟨-, hvalid, -⟩ := (hs noticeSource).config
    exact sourcesFit_setSource hs
      (sourceFits_countOccurrence hs harmed hmode (by decide) (isEdge_of_not_watch hvalid (by decide)))
  · rw [heq]
    exact sourcesFit_setSource hs ((hs noticeSource).markHosts harmed hmode _)

theorem sourcesFit_storeFault (cause : FaultCause) : SourcesFit (storeFault cause s) :=
  sourcesFit_takeNotice (s := s.setFaults (s.faults.store s.now cause)) hs

theorem sourcesFit_edgeOccurrence {i : SourceId} (harmed : (s.source i).state = .armed) (hkind : kindOf i ≠ .posted)
    (hedge : (s.source i).config.trigger.isEdge = true) : SourcesFit (edgeOccurrence i s).1 := by
  unfold edgeOccurrence
  dsimp only
  split
  · next hmode => exact sourcesFit_setSource hs (sourceFits_countOccurrence hs harmed hmode hkind hedge)
  · next hmode => exact sourcesFit_setSource hs ((hs i).markHosts harmed hmode _)

theorem sourcesFit_reactToEdge (rising : Bool) {i : SourceId} (hkind : kindOf i ≠ .posted) :
    SourcesFit (reactToEdge rising i s).1 := by
  unfold reactToEdge
  dsimp only
  split
  · next harmed =>
    have hedge (htrigger : (s.source i).config.trigger.isEdge = true) :=
      sourcesFit_edgeOccurrence hs harmed hkind htrigger
    have hlevel := sourcesFit_levelCheck hs i
    split <;> rename_i htrigger
    · split
      · exact hedge (by rw [htrigger]; rfl)
      · exact hs
    · split
      · exact hs
      · exact hedge (by rw [htrigger]; rfl)
    · exact hedge (by rw [htrigger]; rfl)
    · split
      · exact hlevel
      · exact hs
    · split
      · exact hs
      · exact hlevel
  · exact hs

end Operations

theorem sourcesFit_reportTo (rising : Bool) {s : State} (l : List SourceId) (hl : ∀ i ∈ l, kindOf i ≠ .posted)
    (hs : SourcesFit s) : SourcesFit (reportTo rising l s).1 := by
  induction l generalizing s with
  | nil => exact hs
  | cons i rest ih =>
    exact ih (fun j hj => hl j (List.mem_cons_of_mem i hj)) (sourcesFit_reactToEdge hs rising (hl i List.mem_cons_self))

theorem sourcesFit_storeOverflows {s : State} (l : List SourceId) (hs : SourcesFit s) :
    SourcesFit (storeOverflows l s) := by
  induction l generalizing s with
  | nil => exact hs
  | cons i rest ih => exact ih (sourcesFit_storeFault hs _)

theorem kind_of_mem_receivers {s : State} {l : LineId} {i : SourceId} (hi : i ∈ receivers s l) :
    kindOf i ≠ .posted := fun hposted => by simp [receivers, hposted] at hi

theorem sourcesFit_recomputeAtn {s : State} (hs : SourcesFit s) : SourcesFit (recomputeAtn s) :=
  sourcesFit_of_eq (by simp) (by simp) (by simp) hs

theorem sourcesFit_acceptEdge {s : State} (l : LineId) (level : Bool) (hs : SourcesFit s) :
    SourcesFit (acceptEdge l level s) := by
  have hset : SourcesFit
      (s.setLine l { s.line l with rawLevel := level, acceptedLevel := level, settleDeadline := none }) := hs
  exact sourcesFit_recomputeAtn (sourcesFit_storeOverflows _
    (sourcesFit_of_eq rfl rfl (fun _ => rfl)
      (sourcesFit_reportTo level _ (fun i hi => kind_of_mem_receivers hi) hset)))

/-! ## The end of a ticket -/

section Ended

variable {s : State} (hs : SourcesFit s) {k : SlotId} {t : Ticket} (hslot : (s.slot k).ticket = some t)
include hs hslot

/-- The record of an ended ticket's source, without the ticket. -/
theorem sourcesFit_ended {r : Source}
    (hr : ∀ live, SourceFits t.source (t :: live) s.attached (s.source t.source) →
      SourceFits t.source live s.attached r) :
    SourcesFit ((freeSlot k s).setSource t.source r) := fun j => by
  have hlive : ticketsFrom ((freeSlot k s).setSource t.source r) j = ticketsFrom (freeSlot k s) j := rfl
  have hattached : ((freeSlot k s).setSource t.source r).attached = s.attached := rfl
  rw [hlive, hattached, State.setSource_source]
  split
  · next heq =>
    subst heq
    exact hr _ ((hs t.source).perm (ticketsFrom_perm_of_ticket hslot))
  · next hj => exact (hs j).perm (ticketsFrom_perm_of_other hslot (Ne.symm hj))

theorem sourcesFit_discarded :
    SourcesFit ((freeSlot k s).setSource t.source (discardWork t.host (s.source t.source))) :=
  sourcesFit_ended hs hslot fun _ hr => hr.discardWork

theorem sourcesFit_endDone : SourcesFit (endDone k t s) := by
  unfold endDone
  dsimp only
  split
  · next harmed => exact sourcesFit_levelCheck (sourcesFit_ended hs hslot fun _ hr => hr.consumeWork harmed) _
  · exact sourcesFit_discarded hs hslot

theorem sourcesFit_endDefer : SourcesFit (endDefer k t s) := by
  unfold endDefer
  dsimp only
  split
  · next harmed => exact sourcesFit_levelCheck (sourcesFit_ended hs hslot fun _ hr => hr.returnWork harmed rfl) _
  · exact sourcesFit_discarded hs hslot

theorem sourcesFit_endReleased : SourcesFit (endReleased k t s) := by
  unfold endReleased
  dsimp only
  split
  · next harmed => exact sourcesFit_ended hs hslot fun _ hr => hr.releaseWork harmed rfl
  · exact sourcesFit_discarded hs hslot

theorem sourcesFit_endExpired : SourcesFit (endExpired k t s) := by
  unfold endExpired
  dsimp only
  split
  · next harmed =>
    have hreturned (live : List Ticket) (hr : SourceFits t.source (t :: live) s.attached (s.source t.source)) :=
      hr.returnWork harmed rfl
    have harmed' : (returnWork t (s.source t.source)).state = .armed := (returnWork_config t _).2.trans harmed
    unfold expireArmed
    dsimp only
    split
    · have hcounted (live : List Ticket) (hr : SourceFits t.source (t :: live) s.attached (s.source t.source)) :=
        (hreturned live hr).countAttempt harmed' t.host
      split
      · next habandons =>
        have hi : t.source ≠ noticeSource := fun heq => by simp [abandons, heq] at habandons
        refine sourcesFit_storeFault (sourcesFit_ended hs hslot fun live hr => ?_) _
        exact (hcounted live hr).faultRuntime ((countAttempt_config _ _).2.trans harmed') hi
      · exact sourcesFit_levelCheck (sourcesFit_ended hs hslot hcounted) _
    · exact sourcesFit_levelCheck (sourcesFit_ended hs hslot hreturned) _
  · exact sourcesFit_discarded hs hslot

end Ended

theorem sourcesFit_releaseSlot {s : State} (h : HostId) (k : SlotId) (hs : SourcesFit s) :
    SourcesFit (releaseSlot h k s) := by
  unfold releaseSlot
  split
  · next t hslot =>
    split
    · exact sourcesFit_endReleased hs hslot
    · exact hs
  · exact hs

theorem sourcesFit_releaseTickets {s : State} (h : HostId) (hs : SourcesFit s) : SourcesFit (releaseTickets h s) := by
  unfold releaseTickets
  generalize allSlots = l
  induction l generalizing s with
  | nil => exact hs
  | cons k rest ih => exact ih (sourcesFit_releaseSlot h k hs)

/-! ## Issue and extension -/

section SlotWritten

variable {s : State} {k : SlotId} {y : Slot} {t : Ticket} (hy : y.ticket = some t)
include hy

/-- A ticket put into a slot, with the record its source then has. -/
theorem sourcesFit_setSlot {r : Source} (hothers : ∀ j, j ≠ t.source →
      SourceFits j (ticketsFrom (freeSlot k s) j) s.attached (s.source j))
    (hr : SourceFits t.source (t :: ticketsFrom (freeSlot k s) t.source) s.attached r) :
    SourcesFit ((s.setSlot k y).setSource t.source r) := fun j => by
  have hlive : ticketsFrom ((s.setSlot k y).setSource t.source r) j = ticketsFrom (s.setSlot k y) j := rfl
  have hattached : ((s.setSlot k y).setSource t.source r).attached = s.attached := rfl
  rw [hlive, hattached, State.setSource_source]
  split
  · next heq =>
    subst heq
    exact hr.perm (ticketsFrom_setSlot_perm s k y hy).symm
  · next hj => exact (hothers j (Ne.symm hj)).perm (ticketsFrom_setSlot_perm_of_other s k y hy (Ne.symm hj)).symm

end SlotWritten

/-- R69: the issue of a ticket of a deliverable source into a free slot. -/
theorem sourcesFit_issue {s : State} {h : HostId} {i : SourceId} {k : SlotId} (hs : SourcesFit s)
    (hi : deliverable s i h = true) (hk : (s.slot k).ticket = none) : SourcesFit (issue h i k s) := by
  obtain ⟨harmed, -, -, -, -, hwaits⟩ := (deliverable_iff s i h).mp hi
  obtain ⟨hone, heach⟩ := (workWaits_iff s i h).mp hwaits
  have hnone (hmode : (s.source i).config.mode = .one) : ticketsFrom s i = [] :=
    ticketsFrom_eq_nil (sourceTicket_eq_none.mpr (hone hmode).2)
  refine sourcesFit_recomputeAtn (sourcesFit_setSlot (t := ticketAtIssue s h i k) rfl (fun j _ => ?_) ?_)
  · rw [freeSlot_of_free hk]
    exact hs j
  · rw [freeSlot_of_free hk]
    unfold sourceAfterIssue
    split
    · next hmode =>
      obtain ⟨hpending, -⟩ := hone hmode
      split
      · next hkind =>
        rw [if_pos hkind] at hpending
        exact (hs i).issued_posted harmed (hnone hmode) hmode hkind (List.length_pos_iff.mp hpending)
          (by simp [ticketAtIssue, coveredAtIssue, hmode, hkind])
      · next hkind =>
        exact (hs i).issued_counted harmed (hnone hmode) hmode hkind
          (by simp [ticketAtIssue, coveredAtIssue, hmode, hkind])
    · next hmode =>
      exact (hs i).issued_each harmed hmode (heach hmode) (by simp [ticketAtIssue, coveredAtIssue, hmode])

/-- R86: an EXTEND moves fields of a ticket that its source does not read. -/
theorem sourcesFit_extend {s : State} {k : SlotId} {t : Ticket} (hs : SourcesFit s) (now : Millis)
    (hslot : (s.slot k).ticket = some t) :
    SourcesFit (s.setSlot k { s.slot k with ticket := some (extendTicket now t) }) := by
  have hlive := (hs t.source).perm (ticketsFrom_perm_of_ticket hslot)
  have hwritten := sourcesFit_setSlot (s := s) (k := k) (t := extendTicket now t) (r := s.source t.source)
    (y := { s.slot k with ticket := some (extendTicket now t) }) rfl
    (fun j hj => (hs j).perm (ticketsFrom_perm_of_other hslot hj))
    { hlive with
      covers := fun hone u hu => by
        rcases List.mem_cons.mp hu with rfl | hu
        · exact hlive.covers hone t List.mem_cons_self
        · exact hlive.covers hone u (List.mem_cons_of_mem t hu)
      alone := by
        have halone := hlive.alone
        rw [List.pairwise_cons] at halone ⊢
        exact halone }
  have hsame (u : State) (j : SourceId) : u.sources = (u.setSource j (u.source j)).sources :=
    (Vector.set_getElem_self j.isLt).symm
  exact sourcesFit_of_eq (hsame _ t.source) rfl (fun _ => rfl) hwritten

/-! ## Hosts (R112 to R119) -/

theorem sourcesFit_attachedWith {s : State} (h : HostId) (mask : LaneMask) (hs : SourcesFit s) :
    SourcesFit (attachedWith h mask s) := by
  unfold attachedWith
  have hset : SourcesFit (s.setHost h { s.host h with attached := true, laneMask := mask }) := fun i =>
    SourceFits.attach (hs i) fun x hx => by
      rw [State.setHost_attached]
      split
      · rfl
      · exact hx
  generalize s.setHost h { s.host h with attached := true, laneMask := mask } = u at hset
  generalize allSources = l
  induction l generalizing u with
  | nil => exact hset
  | cons i rest ih => exact ih _ (sourcesFit_levelCheckFor hset h i)

/-- A host that holds no ticket is owed nothing any more, and may be detached. -/
theorem sourcesFit_detached {s t : State} {h : HostId} (hs : SourcesFit s)
    (hfree : ∀ k u, (s.slot k).ticket = some u → u.host ≠ h)
    (hsources : ∀ i, t.source i = (clearOwedTo h s).source i)
    (hslots : t.slots = s.slots) (hothers : ∀ x, x ≠ h → t.attached x = s.attached x) : SourcesFit t := fun i => by
  rw [ticketsFrom_of_slots_eq hslots, hsources, clearOwedTo_source]
  refine (hs i).clearOwed (fun u hu => ?_) hothers
  obtain ⟨-, k, hk⟩ := mem_ticketsFrom.mp hu
  exact hfree k u hk

/-- R118, R119: no ticket of the released host is left. -/
theorem host_ne_of_releaseTickets {h : HostId} {s : State} (k : SlotId) (u : Ticket)
    (hu : ((releaseTickets h s).slot k).ticket = some u) : u.host ≠ h := by
  rw [releaseTickets_slot] at hu
  split at hu
  · cases hu
  · next hkeeps => exact fun hown => hkeeps (by simp [hu, hown])

theorem sourcesFit_releaseChecks {s : State} (l : List Ticket) (hs : SourcesFit s) :
    SourcesFit (releaseChecks l s) := by
  unfold releaseChecks
  induction l generalizing s with
  | nil => exact hs
  | cons t rest ih => exact ih (sourcesFit_levelCheck hs t.source)

theorem sourcesFit_release {s : State} (h : HostId) (hs : SourcesFit s) : SourcesFit (release h s) := by
  unfold release
  dsimp only
  refine sourcesFit_recomputeAtn ?_
  have hchecked : SourcesFit (releaseChecks (s.ticketsOf h)
      ((((releaseSession h (clearOwedTo h (releaseTickets h s))).setHost h HostRec.reset).setWaiting h none).setPort h
        ((releaseSession h (clearOwedTo h (releaseTickets h s))).port h).goDown)) := by
    refine sourcesFit_releaseChecks _ (sourcesFit_detached (sourcesFit_releaseTickets h hs)
      (fun k u hu => host_ne_of_releaseTickets k u hu) (fun i => ?_) ?_ fun x hx => ?_)
    · simp
    · simp
    · simp [State.setHost_attached, Ne.symm hx]
  split
  · exact sourcesFit_storeFault hchecked _
  · exact hchecked

/-! ## A commit (R136, R137) -/

theorem foldl_applyEntry_slots (l : List StagedEntry) (s : State) : (l.foldl applyEntry s).slots = s.slots := by
  induction l generalizing s with
  | nil => rfl
  | cons e rest ih => exact (ih (applyEntry s e)).trans (by simp)

theorem foldl_applyEntry_hosts (l : List StagedEntry) (s : State) : (l.foldl applyEntry s).hosts = s.hosts := by
  induction l generalizing s with
  | nil => rfl
  | cons e rest ih => exact (ih (applyEntry s e)).trans (by simp)

/-- What a commit makes of a record depends on the live tickets alone. -/
theorem commitSource_of_slots_eq {s t : State} (h : t.slots = s.slots) (i : SourceId) (c : SourceConfig) (r : Source) :
    commitSource t i c r = commitSource s i c r := by
  have hholds (x : HostId) : t.holds i x = s.holds i x := by
    rw [holds_eq_any, holds_eq_any, ticketsFrom_of_slots_eq h]
  simp only [commitSource, clearRuntime, hholds]

/-- A source that no entry names is left as it was. -/
theorem foldl_applyEntry_source_other {l : List StagedEntry} {i : SourceId}
    (hl : Target.source i ∉ l.map StagedEntry.target) (s : State) : (l.foldl applyEntry s).source i = s.source i := by
  induction l generalizing s with
  | nil => rfl
  | cons e rest ih =>
    rw [List.map_cons, List.mem_cons, not_or] at hl
    obtain ⟨he, hrest⟩ := hl
    rw [List.foldl_cons, ih hrest]
    cases e with
    | source j c => exact State.setSource_source_ne s j _ i fun heq => he (heq ▸ rfl)
    | lane k limit => rfl
    | line j us => rfl

/-- R136: a source that one entry names has what R137 gives for that entry. -/
theorem foldl_applyEntry_source_mem {l : List StagedEntry} {i : SourceId} {c : SourceConfig}
    (hl : (l.map StagedEntry.target).Nodup) (hmem : .source i c ∈ l) (s : State) :
    (l.foldl applyEntry s).source i = commitSource s i (configFor i c) (s.source i) := by
  induction l generalizing s with
  | nil => cases hmem
  | cons e rest ih =>
    rw [List.map_cons, List.nodup_cons] at hl
    obtain ⟨hhead, hrest⟩ := hl
    rw [List.foldl_cons]
    rcases List.mem_cons.mp hmem with rfl | hmem
    · rw [foldl_applyEntry_source_other hhead, applyEntry, State.setSource_source_self]
    · have hother : (applyEntry s e).source i = s.source i :=
        foldl_applyEntry_source_other (l := [e]) (by
          rw [List.map_singleton, List.mem_singleton]
          exact fun heq => hhead (heq ▸ List.mem_map_of_mem hmem)) s
      rw [ih hrest hmem, hother, commitSource_of_slots_eq (applyEntry_slots s e)]

/-- R134: an entry that is no conflict changes mode or counting without live tickets alone. -/
theorem free_of_not_conflict {s : State} {i : SourceId} {c : SourceConfig}
    (hfree : isConflict s (.source i c) = false) :
    ticketsFrom s i = [] ∨ (c.mode = (s.source i).config.mode ∧ edgeToLevel i (s.source i).config c = false) := by
  cases hticket : s.sourceTicket i with
  | none => exact .inl (ticketsFrom_eq_nil hticket)
  | some t => exact .inr (by simpa [isConflict, hticket] using hfree)

theorem sourcesFit_applyAll {s : State} {l : List StagedEntry} (hl : (l.map StagedEntry.target).Nodup)
    (hvalid : ∀ e ∈ l, StagedEntry.Valid e) (hfree : ∀ e ∈ l, isConflict s e = false)
    (htickets : ∀ k t, (s.slot k).ticket = some t → s.attached t.host = true) (hs : SourcesFit s) :
    SourcesFit (applyAll l s) := by
  have hwritten : SourcesFit (l.foldl applyEntry s) := fun i => by
    have hattached : (l.foldl applyEntry s).attached = s.attached :=
      funext fun h => congrArg (fun v => v[h].attached) (foldl_applyEntry_hosts l s)
    rw [ticketsFrom_of_slots_eq (foldl_applyEntry_slots l s), hattached]
    by_cases hnamed : Target.source i ∈ l.map StagedEntry.target
    · obtain ⟨e, he, htarget⟩ := List.mem_map.mp hnamed
      cases e with
      | source j c =>
        obtain rfl : j = i := by simpa [StagedEntry.target] using htarget
        have hcvalid : validSource j c = true := hvalid _ he
        rw [foldl_applyEntry_source_mem hl he, configFor_of_valid hcvalid]
        refine (hs j).commitSource (free_of_not_conflict (hfree _ he)) hcvalid (fun h => holds_eq_any s j h)
          fun t ht => ?_
        obtain ⟨-, k, hk⟩ := mem_ticketsFrom.mp ht
        exact htickets k t hk
      | lane k limit => cases htarget
      | line j us => cases htarget
    · rw [foldl_applyEntry_source_other hnamed]
      exact hs i
  unfold applyAll
  generalize l.filterMap (checkAfter s) = checks
  generalize l.foldl applyEntry s = u at hwritten
  induction checks generalizing u with
  | nil => exact hwritten
  | cons i rest ih => exact ih _ (sourcesFit_levelCheck hwritten i)

theorem deviceReset_slot (s : State) (k : SlotId) : (deviceReset s).slot k = Slot.reset := by
  show (Vector.replicate 32 Slot.reset)[k.val] = _
  simp

theorem sourcesFit_deviceReset (s : State) : SourcesFit (deviceReset s) := fun i => by
  have hnone : ticketsFrom (deviceReset s) i = [] := by
    refine List.eq_nil_iff_forall_not_mem.mpr fun t ht => ?_
    obtain ⟨-, k, hk⟩ := mem_ticketsFrom.mp ht
    rw [deviceReset_slot] at hk
    cases hk
  rw [hnone, deviceReset_source]
  exact sourceFits_reset i _

end Sys2Proof.Proofs
end

section
/-! PROOFS. The whole invariant, kept by every step (O60) and met by the state after reset (O55): sources and tickets
as `SourcesFit` has them, the ticket records, the credits and the lane masks, effect by effect. -/

namespace Sys2Proof.Proofs

open Sys2Proof.Machine Sys2Proof.Stated Sys2Proof.Safety

/-! ## The tickets' own records -/

/-- Every live ticket's record is kept, and its host is attached. -/
def TicketsHold (s : State) : Prop :=
  ∀ k t, (s.slot k).ticket = some t → TicketKept s k t ∧ s.attached t.host = true

/-- A host that is not attached admits no lane (R111). -/
def MasksKept (s : State) : Prop := ∀ h, s.attached h = false → (s.host h).laneMask = 0

/-- The parts of the invariant that speak of sources, tickets, credits and lane masks. -/
structure CoreKept (s : State) : Prop where
  fits : SourcesFit s
  tickets : TicketsHold s
  credits : CreditsKept s
  masks : MasksKept s

/-- R69: of two live tickets of one source, in two slots, the source is in EACH mode and the hosts differ. -/
theorem pairwise_ticketsFrom {s : State} {i : SourceId} {R : Ticket → Ticket → Prop} (hsymm : ∀ t u, R t u → R u t) :
    (ticketsFrom s i).Pairwise R ↔
      ∀ k j, k ≠ j → ∀ t ∈ (s.slot k).ticket, ∀ u ∈ (s.slot j).ticket, t.source = i → u.source = i → R t u := by
  rw [ticketsFrom, State.liveTickets, List.pairwise_filter, List.pairwise_filterMap]
  have hslots : allSlots.Pairwise (· ≠ ·) := List.nodup_finRange 32
  constructor
  · intro hpairs k j hkj t ht u hu hti hui
    have hlower (k j : SlotId) (hlt : k < j) (t : Ticket) (ht : (s.slot k).ticket = some t) (u : Ticket)
        (hu : (s.slot j).ticket = some u) (hti : t.source = i) (hui : u.source = i) : R t u := by
      have hkj := List.pairwise_iff_getElem.mp hpairs k.val j.val (by simp [allSlots]) (by simp [allSlots]) hlt
      simp only [allSlots, List.getElem_finRange, Fin.cast_mk, Fin.eta, beq_iff_eq] at hkj
      exact hkj t ht u hu hti hui
    rcases lt_or_gt_of_ne hkj with hlt | hgt
    · exact hlower k j hlt t ht u hu hti hui
    · exact hsymm u t (hlower j k hgt u hu t ht hui hti)
  · intro hall
    refine hslots.imp fun hkj t ht u hu hti hui => ?_
    exact hall _ _ hkj t ht u hu (by simpa using hti) (by simpa using hui)

theorem coreKept_of_inv {s : State} (hs : Inv s) : CoreKept s where
  fits i := by
    obtain ⟨hconfig, hruntime, hstate, howed⟩ := hs.sources i
    have halone : (ticketsFrom s i).Pairwise fun t u => (s.source i).config.mode = .each ∧ t.host ≠ u.host := by
      refine (pairwise_ticketsFrom fun t u htu => ⟨htu.1, htu.2.symm⟩).mpr fun k j hkj t ht u hu hti hui => ?_
      subst hti
      have hone := fun hor => hkj (hs.unique k j t ht u hu hui.symm hor)
      refine ⟨?_, fun heq => hone (.inr heq)⟩
      exact (mode_one_or_each _).resolve_left fun hmode => hone (.inl hmode)
    have hcovered (hmode : (s.source i).config.mode = .one) :=
      coveredBy_eq_sum rfl (halone.imp fun htu => not_each_of_one hmode htu.1)
    exact
      { config := hconfig
        runtime := hruntime
        state := hstate
        owed := howed
        markers := fun hmode h => (hs.markers i hmode h).trans (holds_eq_any s i h)
        counts := fun hmode hkind => hcovered hmode ▸ hs.counts i hmode hkind
        queues := fun hmode hkind => heldArguments_eq_countP s i ▸ hs.queues i hmode hkind
        detached := fun h hno => (hs.detached h hno).2.2 i
        covers := fun hone t ht => by
          obtain ⟨rfl, k, hk⟩ := mem_ticketsFrom.mp ht
          exact (hs.tickets k t hk).2.2 hone
        alone := halone }
  tickets k t hk := ⟨(hs.tickets k t hk).1, (hs.tickets k t hk).2.1⟩
  credits := hs.credits
  masks h hno := (hs.detached h hno).1

theorem CoreKept.ticketsKept {s : State} (hs : CoreKept s) : TicketsKept s := fun k t hk =>
  ⟨(hs.tickets k t hk).1, (hs.tickets k t hk).2, fun hone =>
    (hs.fits t.source).covers hone t (mem_ticketsFrom.mpr ⟨rfl, k, hk⟩)⟩

theorem CoreKept.ticketsUnique {s : State} (hs : CoreKept s) : TicketsUnique s := fun k j t ht u hu heq hor => by
  by_contra hkj
  obtain ⟨hmode, hhosts⟩ :=
    (pairwise_ticketsFrom fun t u htu => ⟨htu.1, htu.2.symm⟩).mp (hs.fits t.source).alone k j hkj t ht u hu rfl heq.symm
  rcases hor with hone | hsame
  · exact not_each_of_one hone hmode
  · exact hhosts hsame

/-- The invariant, from its core and the parts that earlier statements settle. -/
theorem inv_of_core {s : State} (hs : CoreKept s) (hlimits : LimitsKept s) (hlines : LinesKept s) (hatn : AtnKept s)
    (hedit : EditKept s) (hfaults : FaultsKept s) (hports : PortsKept s) (hclock : ClockKept s)
    (hheld : ResetHeld s) : Inv s where
  tickets := hs.ticketsKept
  unique := hs.ticketsUnique
  credits := hs.credits
  sources i := ⟨(hs.fits i).config, (hs.fits i).runtime, (hs.fits i).state, (hs.fits i).owed⟩
  markers i hmode h := ((hs.fits i).markers hmode h).trans (holds_eq_any s i h).symm
  counts i hmode hkind := (coveredBy_of_fit hs.fits hmode).symm ▸ (hs.fits i).counts hmode hkind
  queues i hmode hkind := (heldArguments_eq_countP s i).symm ▸ (hs.fits i).queues hmode hkind
  limits := hlimits
  lines := hlines
  detached h hno := by
    refine ⟨hs.masks h hno, editState_of_holder_ne hedit fun hheld => ?_, fun i => (hs.fits i).detached h hno⟩
    obtain ⟨-, -, -, -, -, -, hattached, -⟩ := hedit
    rw [hattached h hheld] at hno
    cases hno
  atn := hatn
  edit := hedit
  faults := hfaults
  ports := hports
  clock := hclock
  held := hheld

/-! ## What an effect does to the sources -/

theorem sourcesFit_of_takes {i : Instr} {h : HostId} {s v : State} (hv : Takes i h s v) (hs : SourcesFit s) :
    SourcesFit v := by
  cases hv with
  | nothing => exact hs
  | attach mask => exact sourcesFit_recomputeAtn (sourcesFit_attachedWith h mask hs)
  | detach hattached hfree =>
    refine sourcesFit_recomputeAtn
      (sourcesFit_detached (h := h) hs (fun k u hu hown => ?_) (fun i => ?_) ?_ fun x hx => ?_)
    · exact ticketsOf_eq_nil.mp hfree k u hu hown
    · rw [clearOwedTo_source, clearOwedTo_source]
      rfl
    · simp
    · rw [clearOwedTo_attached, State.setHost_attached, if_neg (Ne.symm hx)]
  | setMask mask hattached =>
    refine sourcesFit_recomputeAtn (sourcesFit_of_eq (s := s) rfl rfl (fun x => ?_) hs)
    rw [State.setHost_attached]
    split
    · next heq => rw [← heq]; rfl
    · rfl
  | done k t hslot => exact sourcesFit_recomputeAtn (sourcesFit_endDone hs hslot)
  | defer k t hslot => exact sourcesFit_recomputeAtn (sourcesFit_endDefer hs hslot)
  | extend k t _ hslot => exact sourcesFit_extend hs s.now hslot
  | postOne n argument hkind harmed hmode hroom =>
    refine sourcesFit_recomputeAtn (sourcesFit_setSource hs ((hs n).setQueue harmed hmode hkind _ ?_))
    rw [heldArguments_eq_countP] at hroom
    rw [List.length_append, List.length_singleton]
    omega
  | postEach n argument hkind harmed hmode =>
    exact sourcesFit_recomputeAtn
      (sourcesFit_setSource hs (((hs n).setMailbox hkind hmode argument).markHosts harmed hmode _))
  | rearm n hstate =>
    exact sourcesFit_recomputeAtn
      (sourcesFit_levelCheck (sourcesFit_setSource hs ((hs n).rearmRuntime hstate)) n)
  | faultTake => exact hs
  | editOpen => exact sourcesFit_of_eq (s := s) rfl rfl (fun x => setEditState_attached h x _ _) hs
  | editClose => exact sourcesFit_of_eq (s := s) rfl rfl (fun x => setEditState_attached h x _ _) hs
  | staged => exact hs
  | dropped => exact hs

theorem sourcesFit_answerRequest (h : HostId) (a : Answer) {v : State} (hv : SourcesFit v) :
    SourcesFit (answerRequest h (v, a)) := by
  rw [answerRequest_frame]
  exact hv

theorem sourcesFit_of_effect {c : Instr} {s t : State} (ht : Effect c s t) (hs : SourcesFit s)
    (htickets : TicketsHold s) (hedit : EditKept s) : SourcesFit t := by
  cases ht with
  | nothing => exact hs
  | taken i h n v a _ _ _ _ htakes =>
    exact sourcesFit_answerRequest h a
      (sourcesFit_of_takes (s := s.setPort h (passedPort n (s.port h))) htakes hs)
  | commitBegun h n => exact sourcesFit_of_eq (s := s) rfl rfl (fun x => setEditState_attached h x .commit _) hs
  | claimRefused h a => exact sourcesFit_answerRequest h a (v := claimOff h s) hs
  | claimIssued h i k a _ _ hi hk =>
    exact sourcesFit_answerRequest h a (sourcesFit_issue (s := claimOff h s) hs hi hk)
  | conflict h p tg => exact sourcesFit_of_eq (s := s) rfl rfl (fun x => setEditState_attached h x .session _) hs
  | applied h _ _ _ hfree =>
    have hattached (x : HostId) : (completeApply h s).attached x = (applyAll s.edit.staged s).attached x := by
      have hended : (endSession h (applyAll s.edit.staged s)).attached x = (applyAll s.edit.staged s).attached x :=
        setEditState_attached h x .none _
      simpa [completeApply] using hended
    have hnodup : (s.edit.staged.map StagedEntry.target).Nodup := by
      obtain ⟨-, -, -, -, hnodup, -, -, -⟩ := hedit
      exact hnodup
    exact sourcesFit_of_eq (by simp [completeApply]) (by simp [completeApply]) hattached
      (sourcesFit_applyAll hnodup (staged_valid hedit) hfree (fun k t hk => (htickets k t hk).2) hs)
  | idleExpired h =>
    have hended : SourcesFit (endSession h s) :=
      sourcesFit_of_eq (s := s) rfl rfl (fun x => setEditState_attached h x .none _) hs
    exact sourcesFit_recomputeAtn (sourcesFit_storeFault hended _)
  | leaseExpired k t _ hslot => exact sourcesFit_recomputeAtn (sourcesFit_endExpired hs hslot)
  | released h => exact sourcesFit_release h hs
  | deviceReset => exact sourcesFit_deviceReset s
  | edge l level => exact sourcesFit_acceptEdge l level hs
  | _ => exact sourcesFit_of_eq (by simp) (by simp) (fun _ => by simp) hs

/-! ## What an effect does to the slots -/

/-- From `s` to `t` tickets have ended, one has been issued, or one has had its deadline moved. -/
inductive SlotsMove (s t : State) : Prop where
  | stays (hstays : ∀ k u, (t.slot k).ticket = some u → t.slot k = s.slot k)
  | issued (h : HostId) (i : SourceId) (k : SlotId) (hi : deliverable s i h = true) (hk : (s.slot k).ticket = none)
      (hslots : t.slots =
        (s.setSlot k { sequence := advanceSequence (s.slot k).sequence, ticket := some (ticketAtIssue s h i k) }).slots)
  | extended (k : SlotId) (u : Ticket) (hslot : (s.slot k).ticket = some u) (hlease : u.leaseMs ≠ 0)
      (hroom : u.extensions < 15)
      (hslots : t.slots = (s.setSlot k { s.slot k with ticket := some (extendTicket s.now u) }).slots)

theorem slotsMove_of_eq {s t : State} (h : t.slots = s.slots) : SlotsMove s t :=
  .stays fun k _ _ => slot_of_slots_eq h k

theorem slotsMove_freeSlot {s t : State} {k : SlotId} (h : t.slots = (freeSlot k s).slots) : SlotsMove s t :=
  .stays fun j u hu => by
    rw [slot_of_slots_eq h, freeSlot_slot] at hu ⊢
    split at hu
    · cases hu
    · next hkj => rw [if_neg hkj]

theorem slotsMove_of_takes {i : Instr} {h : HostId} {s v : State} (hv : Takes i h s v) : SlotsMove s v := by
  cases hv with
  | attach mask =>
    refine slotsMove_of_eq ?_
    rw [attachedWith_frame]
    simp
  | done k t => exact slotsMove_freeSlot ((recomputeAtn_slots _).trans (endDone_slots k t s))
  | defer k t => exact slotsMove_freeSlot ((recomputeAtn_slots _).trans (endDefer_slots k t s))
  | extend k t _ hslot hlease hroom => exact .extended k t hslot hlease hroom rfl
  | _ => exact slotsMove_of_eq (by simp)

theorem slotsMove_of_effect {c : Instr} {s t : State} (ht : Effect c s t) : SlotsMove s t := by
  cases ht with
  | taken i h n v a _ _ _ _ htakes =>
    have hslots : (answerRequest h (v, a)).slots = v.slots := by
      rw [answerRequest_frame]
    rcases slotsMove_of_takes htakes with hstays | ⟨x, j, k, hi, hk, heq⟩ | ⟨k, u, hslot, hlease, hroom, heq⟩
    · refine .stays fun k u hu => ?_
      rw [slot_of_slots_eq hslots] at hu ⊢
      exact hstays k u hu
    · exact .issued x j k hi hk (hslots.trans heq)
    · exact .extended k u hslot hlease hroom (hslots.trans heq)
  | claimRefused h a =>
    refine slotsMove_of_eq (?_ : _ = (claimOff h s).slots)
    rw [answerRequest_frame]
  | claimIssued h i k a _ _ hi hk =>
    refine .issued h i k hi hk ?_
    rw [answerRequest_frame]
    rfl
  | conflict h p tg => exact slotsMove_of_eq (by simp [completeConflict])
  | applied h => exact slotsMove_of_eq (by simp [completeApply])
  | leaseExpired k u => exact slotsMove_freeSlot ((recomputeAtn_slots _).trans (endExpired_slots k u s))
  | released h =>
    refine .stays fun k u hu => ?_
    rw [slot_of_slots_eq (release_slots h s), releaseTickets_slot] at hu ⊢
    split at hu
    · cases hu
    · next hkeeps => rw [if_neg hkeeps]
  | deviceReset =>
    refine .stays fun k u hu => ?_
    rw [deviceReset_slot] at hu
    cases hu
  | _ => exact slotsMove_of_eq (by simp)

/-! ## What an effect does to the hosts -/

/-- From `s` to `t` each host has kept its attachment and its mask, or is attached, or admits no lane and holds no
ticket. -/
def HostsMove (s t : State) : Prop :=
  ∀ x, (t.attached x = s.attached x ∧ (t.host x).laneMask = (s.host x).laneMask) ∨ t.attached x = true ∨
    ((t.host x).laneMask = 0 ∧ ∀ k u, (t.slot k).ticket = some u → u.host ≠ x)

theorem hostsMove_of_eq {s t : State} (h : t.hosts = s.hosts) : HostsMove s t := fun x =>
  .inl ⟨congrArg (fun v => v[x].attached) h, congrArg (fun v => v[x].laneMask) h⟩

theorem hostsMove_session {s t : State} (h : HostId) (es : EditState) (e : EditUnit)
    (hhosts : t.hosts = (setEditState h es (s.setEdit e)).hosts) : HostsMove s t := fun x =>
  have hread := sameReads_session h es e s
  .inl ⟨(congrArg (fun v => v[x].attached) hhosts).trans (hread.attached x),
    (congrArg (fun v => v[x].laneMask) hhosts).trans (hread.laneMask x)⟩

/-- One host's record written: attached, or with no lane and no ticket. -/
theorem hostsMove_setHost {s t : State} {h : HostId} {r : HostRec} (hhosts : ∀ x, t.host x = (s.setHost h r).host x)
    (hr : r.attached = true ∨ (r.laneMask = 0 ∧ ∀ k u, (t.slot k).ticket = some u → u.host ≠ h)) : HostsMove s t :=
  fun x => by
    by_cases hx : x = h
    · subst hx
      have hself : t.host x = r := (hhosts x).trans (State.setHost_host_self s x r)
      rw [State.attached, hself]
      exact .inr hr
    · have hother : t.host x = s.host x := (hhosts x).trans (State.setHost_host_ne s h r x (Ne.symm hx))
      rw [State.attached, State.attached, hother]
      exact .inl ⟨rfl, rfl⟩

theorem hostsMove_of_takes {i : Instr} {h : HostId} {s v : State} (hv : Takes i h s v) : HostsMove s v := by
  cases hv with
  | attach mask =>
    refine hostsMove_setHost (h := h) (r := { s.host h with attached := true, laneMask := mask }) (fun x => ?_)
      (.inl rfl)
    rw [attachedWith_frame]
    simp [State.host]
  | detach hattached hfree =>
    refine hostsMove_setHost (h := h) (r := { s.host h with attached := false, laneMask := 0 }) (fun x => ?_)
      (.inr ⟨rfl, fun k u hu => ?_⟩)
    · simp
    · exact ticketsOf_eq_nil.mp hfree k u (by simpa using hu)
  | setMask mask hattached =>
    refine hostsMove_setHost (h := h) (r := { s.host h with laneMask := mask }) (fun x => ?_) (.inl hattached)
    simp
  | editOpen => exact hostsMove_session h .session _ rfl
  | editClose => exact hostsMove_session h .none _ rfl
  | _ => exact hostsMove_of_eq (by simp)

theorem hostsMove_of_effect {c : Instr} {s t : State} (ht : Effect c s t) : HostsMove s t := by
  cases ht with
  | taken i h n v a _ _ _ _ htakes =>
    have hmoves := hostsMove_of_takes htakes
    rw [answerRequest_frame]
    exact hmoves
  | commitBegun h n => exact hostsMove_session (s := s.setPort h (passedPort n (s.port h))) h .commit _ rfl
  | claimRefused h a =>
    rw [answerRequest_frame]
    exact hostsMove_of_eq rfl
  | claimIssued h i k a =>
    rw [answerRequest_frame]
    exact hostsMove_of_eq (by simp)
  | conflict h p tg => exact hostsMove_session h .session _ rfl
  | applied h =>
    refine hostsMove_session h .none EditUnit.reset ?_
    simp [completeApply, endSession, setEditState, State.setHost, State.host]
  | idleExpired h => exact hostsMove_session h .none EditUnit.reset (by simp [endSession])
  | released h =>
    refine hostsMove_setHost (h := h) (r := HostRec.reset) (release_host h s) (.inr ⟨rfl, fun k u hu => ?_⟩)
    rw [slot_of_slots_eq (release_slots h s)] at hu
    exact host_ne_of_releaseTickets k u hu
  | deviceReset =>
    refine fun x => .inr (.inr ⟨?_, fun k u hu => ?_⟩)
    · rw [deviceReset_host]
      rfl
    · rw [deviceReset_slot] at hu
      cases hu
  | _ => exact hostsMove_of_eq (by simp)

/-! ## The core, effect by effect -/

/-- R66, R68, R75: the record of an issued ticket. -/
theorem ticketKept_issued {s t : State} {h : HostId} {i : SourceId} {k : SlotId} (hs : SourcesFit s)
    (hi : deliverable s i h = true)
    (hslot : (t.slot k).sequence = advanceSequence (s.slot k).sequence) :
    TicketKept t k (ticketAtIssue s h i k) := by
  obtain ⟨-, -, -, -, -, hwaits⟩ := (deliverable_iff s i h).mp hi
  obtain ⟨hone, heach⟩ := (workWaits_iff s i h).mp hwaits
  obtain ⟨-, -, -, -, hattempts, hattemptsOf⟩ := (hs i).runtime
  obtain ⟨-, hvalid, -⟩ := (hs i).config
  have hlease := leaseMs_le_of_validSource hvalid
  have hcovered : 1 ≤ coveredAtIssue i (s.source i) ∧ coveredAtIssue i (s.source i) ≤ 15 := by
    unfold coveredAtIssue
    split
    · next hmode =>
      split
      · decide
      · next hkind =>
        obtain ⟨hpending, -⟩ := hone hmode
        obtain ⟨hcap, -⟩ := (hs i).counts hmode hkind
        rw [if_neg hkind] at hpending
        omega
    · decide
  have hargument : (argumentAtIssue i (s.source i)).isSome = (kindOf i == .posted) := by
    unfold argumentAtIssue
    split
    · next hkind =>
      rw [hkind]
      split
      · next hmode =>
        obtain ⟨hpending, -⟩ := hone hmode
        rw [if_pos hkind] at hpending
        obtain ⟨w, rest, hqueue⟩ := List.exists_cons_of_length_pos hpending
        rw [hqueue]
        rfl
      · rfl
    · next hkind => rw [beq_false_of_ne hkind]; rfl
  have hattempt : 1 ≤ attemptAtIssue h (s.source i) ∧ attemptAtIssue h (s.source i) ≤ 8 := by
    have hof := hattemptsOf h
    unfold attemptAtIssue
    split <;> omega
  refine ⟨hslot ▸ advanceSequence_ne_zero _, hslot ▸ rfl, hcovered.1, hcovered.2, hargument, hattempt.1, hattempt.2,
    Nat.zero_le 15, hlease, ?_⟩
  show (if (s.source i).config.leaseMs = 0 then none else some _).isSome = ((s.source i).config.leaseMs != 0)
  split <;> simp_all

theorem ticketsHold_of_moves {s t : State} (hslots : SlotsMove s t) (hhosts : HostsMove s t) (hs : SourcesFit s)
    (htickets : TicketsHold s) : TicketsHold t := by
  have hattached (k : SlotId) (u : Ticket) (hu : (t.slot k).ticket = some u) (hyes : s.attached u.host = true) :
      t.attached u.host = true := by
    rcases hhosts u.host with ⟨hsame, -⟩ | hnow | ⟨-, hnone⟩
    · exact hsame.trans hyes
    · exact hnow
    · exact absurd rfl (hnone k u hu)
  have hkeeps (k : SlotId) (u : Ticket) (hu : (t.slot k).ticket = some u) (hsame : t.slot k = s.slot k) :
      TicketKept t k u ∧ t.attached u.host = true := by
    obtain ⟨hkept, hyes⟩ := htickets k u (hsame ▸ hu)
    refine ⟨?_, hattached k u hu hyes⟩
    rw [TicketKept, hsame]
    exact hkept
  intro k u hu
  rcases hslots with hstays | ⟨h, i, j, hi, hj, heq⟩ | ⟨j, v, hj, hlease, hroom, heq⟩
  · exact hkeeps k u hu (hstays k u hu)
  · have hslot := slot_of_slots_eq heq k
    rw [State.setSlot_slot] at hslot
    split at hslot
    · next hjk =>
      subst hjk
      obtain rfl : ticketAtIssue s h i j = u := by
        rw [hslot] at hu
        exact Option.some.inj hu
      obtain ⟨-, hyes, -⟩ := (deliverable_iff s i h).mp hi
      exact ⟨ticketKept_issued hs hi (by rw [hslot]), hattached j _ hu hyes⟩
    · exact hkeeps k u hu hslot
  · have hslot := slot_of_slots_eq heq k
    rw [State.setSlot_slot] at hslot
    split at hslot
    · next hjk =>
      subst hjk
      obtain rfl : extendTicket s.now v = u := by
        rw [hslot] at hu
        exact Option.some.inj hu
      obtain ⟨⟨hsequence, hnumber, hlow, hhigh, hargument, hfirst, hlast, -, hleases, -⟩, hyes⟩ := htickets j v hj
      refine ⟨?_, hattached j _ hu hyes⟩
      rw [TicketKept, hslot]
      exact ⟨hsequence, hnumber, hlow, hhigh, hargument, hfirst, hlast, hroom, hleases,
        by simpa [extendTicket] using hlease⟩
    · exact hkeeps k u hu hslot

/-- Tickets that stay or end count no more than before. -/
theorem liveTickets_sublist {s t : State} (hstays : ∀ k u, (t.slot k).ticket = some u → t.slot k = s.slot k) :
    t.liveTickets.Sublist s.liveTickets := by
  unfold State.liveTickets
  generalize allSlots = l
  induction l with
  | nil => exact .slnil
  | cons k rest ih =>
    cases ht : (t.slot k).ticket with
    | none =>
      simp only [List.filterMap_cons, ht]
      cases hs : (s.slot k).ticket with
      | none => exact ih
      | some u => exact ih.cons u
    | some u =>
      have hs : (s.slot k).ticket = some u := hstays k u ht ▸ ht
      simp only [List.filterMap_cons, ht, hs]
      exact ih.cons_cons u

/-- R41, R42: only an issue adds to a count, and it finds credit. -/
theorem creditsKept_of_move {s t : State} (hslots : SlotsMove s t) (hlimits : LimitsKept s) (hs : CreditsKept s) :
    CreditsKept t := fun x l => by
  unfold State.liveCount
  have hbefore := hs x l
  unfold State.liveCount at hbefore
  rcases hslots with hstays | ⟨h, i, j, hi, hj, heq⟩ | ⟨j, v, hj, -, -, heq⟩
  · exact ((liveTickets_sublist hstays).countP_le).trans hbefore
  · rw [liveTickets_of_slots_eq heq, (liveTickets_setSlot_perm s j _).countP_eq, freeSlot_of_free hj]
    simp only [Option.toList_some, List.singleton_append, List.countP_cons]
    split
    · next hcounted =>
      obtain ⟨-, -, -, -, hcredit, -⟩ := (deliverable_iff s i h).mp hi
      have hroom := (hasCredit_iff s h _).mp hcredit
      obtain ⟨-, hfour⟩ := hlimits (s.source i).config.lane
      simp only [ticketAtIssue, Bool.and_eq_true, beq_iff_eq] at hcounted
      obtain ⟨rfl, rfl⟩ := hcounted
      omega
    · exact hbefore
  · rw [(liveTickets_perm_freeSlot s j).countP_eq, hj] at hbefore
    rw [liveTickets_of_slots_eq heq, (liveTickets_setSlot_perm s j _).countP_eq]
    exact hbefore

theorem masksKept_of_move {s t : State} (hhosts : HostsMove s t) (hs : MasksKept s) : MasksKept t := fun x hno => by
  rcases hhosts x with ⟨hattached, hmask⟩ | hyes | ⟨hnone, -⟩
  · exact hmask.trans (hs x (hattached.symm.trans hno))
  · rw [hno] at hyes
    cases hyes
  · exact hnone

theorem coreKept_of_effect {c : Instr} {s t : State} (ht : Effect c s t) (hedit : EditKept s) (hlimits : LimitsKept s)
    (hs : CoreKept s) : CoreKept t where
  fits := sourcesFit_of_effect ht hs.fits hs.tickets hedit
  tickets := ticketsHold_of_moves (slotsMove_of_effect ht) (hostsMove_of_effect ht) hs.fits hs.tickets
  credits := creditsKept_of_move (slotsMove_of_effect ht) hlimits hs.credits
  masks := masksKept_of_move (hostsMove_of_effect ht) hs.masks

theorem coreKept_of_eq {s t : State} (hsources : t.sources = s.sources) (hslots : t.slots = s.slots)
    (hhosts : t.hosts = s.hosts) (hs : CoreKept s) : CoreKept t where
  fits := sourcesFit_of_eq hsources hslots (fun h => congrArg (fun v => v[h].attached) hhosts) hs.fits
  tickets := ticketsHold_of_moves (slotsMove_of_eq hslots) (hostsMove_of_eq hhosts) hs.fits hs.tickets
  credits h k := by
    rw [State.liveCount, liveTickets_of_slots_eq hslots]
    exact hs.credits h k
  masks := masksKept_of_move (hostsMove_of_eq hhosts) hs.masks

/-! ## The whole invariant -/

theorem inv_pending {s : State} (q : List Instr) (hs : Inv s) : Inv (s.setPending q) :=
  inv_of_core (coreKept_of_eq (s := s) rfl rfl rfl (coreKept_of_inv hs)) hs.limits hs.lines hs.atn hs.edit hs.faults
    hs.ports hs.clock fun hno => ⟨atReset_of_ports rfl (hs.held hno).1, (hs.held hno).2⟩

theorem coreKept_of_step {s t : State} (hs : Inv s) (ht : step s = .next t) : CoreKept t := by
  rcases step_cases ht with ⟨_, rfl⟩ | ⟨c, rest, _, hc⟩
  · rw [tick_frame]
    exact coreKept_of_eq (s := s) rfl rfl rfl (coreKept_of_inv hs)
  · have hpending := inv_pending rest hs
    exact coreKept_of_effect hc hpending.edit hpending.limits (coreKept_of_inv hpending)

/-- Settles O60: the core effect by effect, the other parts by the statements on each of them. -/
theorem everyStepKeepsTheInvariant : Obligations.EveryStepKeepsTheInvariant := by
  intro s t hs ht
  obtain ⟨hranges, hreset⟩ := limitsAndLinesStayInRange
  obtain ⟨hlimits, hlines, hclock⟩ := hranges s t hs.edit ⟨hs.limits, hs.lines, hs.clock⟩ ht
  obtain ⟨hedit, hports⟩ := sessionPortsAndClaimsAgree s t hs.held ⟨hs.edit, hs.ports⟩ ht
  exact inv_of_core (coreKept_of_step hs ht) hlimits hlines (attentionIsAlwaysCurrent s t hs.atn ht) hedit
    (faultQueueAndIdleSourcesStayInOrder.1 s t hs.faults ht) hports hclock (hreset s t hs.held ht)

/-- R159: a device reset leaves every table at its reset values. -/
theorem coreKept_deviceReset (s : State) : CoreKept (deviceReset s) where
  fits := sourcesFit_deviceReset s
  tickets k t hk := by
    rw [deviceReset_slot] at hk
    cases hk
  credits h k := by
    have hnone : (deviceReset s).liveTickets = [] := List.eq_nil_iff_forall_not_mem.mpr fun t ht => by
      obtain ⟨k, hk⟩ := mem_liveTickets.mp ht
      rw [deviceReset_slot] at hk
      cases hk
    rw [State.liveCount, hnone]
    exact Nat.zero_le 4
  masks h _ := by
    rw [deviceReset_host]
    rfl

theorem inv_deviceReset (s : State) : Inv (deviceReset s) :=
  inv_of_core (coreKept_deviceReset s) (limitsKept_deviceReset s) (linesKept_reset s) (atnKept_deviceReset s)
    (editKept_of_reset rfl fun x => by rw [deviceReset_host]; rfl)
    ⟨Nat.zero_le 16, by simp [deviceReset, State.reset, FaultQueue.reset], trivial⟩ (portsKept_deviceReset s)
    (by simp [ClockKept, deviceReset, State.reset, Clock.reset]) (resetHeld_deviceReset s)

theorem deviceReset_reset : deviceReset State.reset = State.reset := by
  have hports : (Vector.ofFn fun h => (State.reset.port h).afterReset) = State.reset.ports :=
    vector_ext fun h => by simp [State.reset, State.port, Port.afterReset, Port.reset]
  rw [deviceReset, hports]

/-- Settles O55: the state after reset is what a device reset leaves. -/
theorem resetStateIsWellKept : Obligations.ResetStateIsWellKept := by
  unfold Obligations.ResetStateIsWellKept
  rw [← deviceReset_reset]
  exact inv_deviceReset State.reset

end Sys2Proof.Proofs
end

section
/-! PROOFS. Steps, time and resets: the step of a command and of an empty queue (O1, O2), the reset and its end (O43,
O45), DOWN_DEASSERTION (O42), and the commands for events that do not arise (O44). -/

namespace Sys2Proof.Proofs

open Sys2Proof.Machine Sys2Proof.Stated Sys2Proof.Safety

/-- Settles O1: the queue is a list, and a step takes its head. -/
theorem stepRunsTheFrontCommand : Obligations.StepRunsTheFrontCommand := fun _ _ _ => rfl

/-! ## The events that are due -/

theorem settleDue_iff {s : State} {l : LineId} :
    settleDue s l = true ↔ ∃ d, (s.line l).settleDeadline = some d ∧ d ≤ s.clock.us := by
  unfold settleDue
  cases (s.line l).settleDeadline <;> simp

theorem expiredIn_isSome_iff {s : State} {k : SlotId} :
    (expiredIn s k).isSome = true ↔
      ∃ tk d, (s.slot k).ticket = some tk ∧ tk.deadlineMs = some d ∧ reachedMs s.now d = true := by
  unfold expiredIn
  cases (s.slot k).ticket with
  | none => simp
  | some tk =>
    cases hdeadline : tk.deadlineMs with
    | none => simp [hdeadline]
    | some d => by_cases hreached : reachedMs s.now d = true <;> simp [hdeadline, hreached]

theorem idleExpired_isSome_iff {s : State} :
    (idleExpired s).isSome = true ↔
      ∃ h d, s.edit.holder = some h ∧ s.edit.commitInFlight = false ∧ s.edit.idleDeadline = some d ∧
        reachedMs s.now d = true := by
  unfold idleExpired
  cases s.edit.holder with
  | none => simp
  | some h =>
    cases s.edit.idleDeadline with
    | none => simp
    | some d => by_cases hdue : s.edit.commitInFlight = false ∧ reachedMs s.now d = true <;> simp [hdue]

theorem commitDue_iff {s : State} :
    commitDue s = true ↔
      ∃ d, s.edit.commitInFlight = true ∧ s.edit.commitBoundUs = some d ∧ d ≤ s.clock.us := by
  unfold commitDue
  cases s.edit.commitBoundUs <;> simp

/-- R31, R57, R87, R128, R134: the events of the part's own that are due, each by its condition. -/
theorem mem_dueEvents {s : State} {c : Instr} :
    c ∈ dueEvents s ↔
      (∃ l, settleDue s l = true ∧ c = .settleExpiry l) ∨ (∃ k, (expiredIn s k).isSome = true ∧ c = .leaseExpiry k) ∨
        ((idleExpired s).isSome = true ∧ c = .idleExpiry) ∨ (commitDue s = true ∧ c = .commitCompletion) ∨
          ((∃ h : HostId, (s.waitingClaim h).isSome = true) ∧ c = .claimTaken) := by
  simp only [dueEvents, List.mem_append, List.mem_map, List.mem_filter, allLines, allSlots, allHosts, List.mem_finRange,
    true_and, or_assoc, eq_comm (b := c)]
  refine or_congr_right (or_congr_right (or_congr ?_ (or_congr ?_ ?_)))
  · split <;> simp_all
  · split <;> simp_all
  · simp

/-- A microsecond after a reset: the clocks, and the due events in the queue in some order. -/
theorem tick_of_sampled {s : State} (hsampled : s.sampled = true) :
    (tick s).clock = s.clock.tick ∧
      ∀ c, c ∈ (tick s).pending ↔ c ∈ s.pending ∨ c ∈ dueEvents (s.setClock s.clock.tick) := by
  have htick : tick s = _ := if_pos hsampled
  rw [htick]
  refine ⟨rfl, fun c => ?_⟩
  simp

/-- Settles O2: the queue of the tick holds the due events, and those are read off `mem_dueEvents`. -/
theorem emptyQueueStepPassesOneMicrosecond : Obligations.EmptyQueueStepPassesOneMicrosecond := by
  have hstep (s : State) (hempty : s.pending = []) : step s = .next (tick s) := by rw [step, hempty]
  refine ⟨fun s hempty hsampled => ?_, fun s hempty hsampled => ?_⟩
  · rw [hstep s hempty]
    simp [tick, hsampled]
  · obtain ⟨hclock, hpending⟩ := tick_of_sampled hsampled
    have hdue (c : Instr) : c ∈ (tick s).pending ↔ c ∈ dueEvents (s.setClock s.clock.tick) := by
      rw [hpending, hempty]
      simp
    have hnow : (tick s).now = s.clock.tick.ms := congrArg Clock.ms hclock
    have hus : s.clock.tick.us = s.clock.us + 1 := by
      unfold Clock.tick
      split <;> rfl
    refine ⟨tick s, hstep s hempty, tick_frame s, hclock ▸ hus, fun hlow => ?_, fun hhigh => ?_, fun l => ?_,
      fun k => ?_, ?_, ?_, ?_, fun c hc => ?_⟩
    · rw [hclock, Clock.tick, if_pos hlow]
      exact ⟨rfl, rfl⟩
    · rw [hclock, Clock.tick, if_neg (Nat.not_lt.mpr hhigh)]
      exact ⟨rfl, rfl⟩
    · have hsettle := settleDue_iff (s := s.setClock s.clock.tick) (l := l)
      simpa [hdue, mem_dueEvents, hclock] using hsettle
    · have hlease := expiredIn_isSome_iff (s := s.setClock s.clock.tick) (k := k)
      simpa [hdue, mem_dueEvents, hnow] using hlease
    · have hidle := idleExpired_isSome_iff (s := s.setClock s.clock.tick)
      simpa [hdue, mem_dueEvents, hnow] using hidle
    · have hcommit := commitDue_iff (s := s.setClock s.clock.tick)
      simpa [hdue, mem_dueEvents, hclock] using hcommit
    · simp [hdue, mem_dueEvents]
    · rcases mem_dueEvents.mp ((hdue c).mp hc) with ⟨l, -, rfl⟩ | ⟨k, -, rfl⟩ | ⟨-, rfl⟩ | ⟨-, rfl⟩ | ⟨-, rfl⟩
      · exact .inl ⟨l, rfl⟩
      · exact .inr (.inl ⟨k, rfl⟩)
      · exact .inr (.inr (.inl rfl))
      · exact .inr (.inr (.inr (.inl rfl)))
      · exact .inr (.inr (.inr (.inr rfl)))

/-! ## The device reset and its end -/

/-- Settles O43: table by table. -/
theorem deviceResetGivesResetValues : Obligations.DeviceResetGivesResetValues := by
  intro s
  have hline (l : LineId) : (deviceReset s).line l = Line.reset := by
    show (Vector.replicate 40 Line.reset)[l.val] = _
    simp
  refine ⟨deviceReset s, rfl, fun i => deviceReset_source s i, fun l => ?_, fun k => ?_, fun h => deviceReset_host s h,
    fun h => ?_, rfl, fun k => deviceReset_slot s k, rfl, rfl, fun h => ?_, rfl, fun h => ?_, rfl⟩
  · rw [hline]
    exact ⟨rfl, rfl, rfl⟩
  · show (Vector.replicate 8 1)[k.val] = 1
    simp
  · show (Vector.replicate 4 none)[h.val] = none
    simp
  · show (Vector.replicate 4 false)[h.val] = false
    simp
  · have hport : (deviceReset s).port h = (s.port h).afterReset := by simp [deviceReset, State.port]
    rw [hport, Port.afterReset]
    split <;> rfl

/-- Settles O45: the flag, and what the first sample writes into each line and port. -/
theorem firstSamplesReportNoEdge : Obligations.FirstSamplesReportNoEdge := by
  refine ⟨rfl, fun s => ⟨deviceReset s, rfl, rfl⟩, fun s found hsampled => ⟨endReset found s, ?_, ?_, fun l => ?_,
    fun h => ?_⟩⟩
  · exact if_neg (by simp [hsampled])
  · rw [endReset_frame]
    rfl
  · simp [endReset, Line.firstSample]
  · simp [endReset, Port.endReset, hasHost]

/-- Settles O42: the deassertion writes one port. -/
theorem downKeepsThePortUntilDeassertion : Obligations.DownKeepsThePortUntilDeassertion := fun s d hdown =>
  ⟨s.setPort d.host ((s.port d.host).leaveDown d.windowOpen), if_pos hdown, rfl, State.setPort_port_self .., fun x hx =>
    State.setPort_port_ne s d.host _ x hx.symm⟩

/-! ## Events that do not arise -/

theorem eq_none_of_not_isSome {α : Type} {o : Option α} (h : ¬ o.isSome = true) : o = none := by simpa using h

/-- R87: a moment within half the wrapping count before now is reached. -/
theorem reachedMs_iff (now d : Millis) : reachedMs now d = true ↔ (now - d).toNat < 2 ^ 31 := by
  rw [reachedMs, beq_iff_eq, BitVec.msb_eq_decide, decide_eq_false_iff_not, Nat.not_le]

/-- Settles O44: each command's own guard. -/
theorem eventsThatDoNotAriseChangeNothing : Obligations.EventsThatDoNotAriseChangeNothing := by
  refine ⟨fun s hnone => ?_, fun s hnone => ?_, fun s hnone => ?_, fun s k hnone => ?_, fun s h hdown => if_pos hdown,
    fun s d hup => if_neg hup, fun s l hnone => ?_, fun s found hsampled => if_pos hsampled, fun s l level hsame => ?_,
    fun s w hlistens hup hfree => ?_, reachedMs_iff⟩
  · have hnext : nextClaim s = none := by
      rw [nextClaim, List.find?_eq_none.mpr fun h _ => by simp [hnone h]]
    show execClaimTaken s = _
    rw [execClaimTaken, hnext]
  · show execCommitCompletion s = _
    unfold execCommitCompletion
    split
    · rfl
    · next h hheld =>
      have hidle := hnone.resolve_left (by simp [hheld])
      rw [hidle]
      rfl
  · have hidle : idleExpired s = none := by
      refine eq_none_of_not_isSome fun hsome => ?_
      obtain ⟨h, d, hheld, hflight, hdeadline, hreached⟩ := idleExpired_isSome_iff.mp hsome
      rcases hnone with hfree | hbusy | hearly
      · simp [hheld] at hfree
      · simp [hflight] at hbusy
      · simp [hearly d hdeadline] at hreached
    show execIdleExpiry s = _
    rw [execIdleExpiry, hidle]
  · have hexpired : expiredIn s k = none := by
      refine eq_none_of_not_isSome fun hsome => ?_
      obtain ⟨tk, d, hslot, hdeadline, hreached⟩ := expiredIn_isSome_iff.mp hsome
      simp [hnone tk hslot d hdeadline] at hreached
    show execLeaseExpiry k s = _
    rw [execLeaseExpiry, hexpired]
  · have hearly : settleDue s l ≠ true := fun hdue => by
      obtain ⟨d, hdeadline, hreached⟩ := settleDue_iff.mp hdue
      exact absurd (hnone d hdeadline) (Nat.not_lt.mpr hreached)
    exact if_neg hearly
  · exact if_neg fun hchange => hsame.elim (fun hno => by simp [hno] at hchange) hchange.2
  · have htakes : windowIgnored s w.host = false := windowIgnored_eq_false.mpr ⟨hlistens.1, hup, hlistens.2⟩
    show Host.Outcome.next (workingWindow w.host w.count s) = _
    rw [workingWindow, htakes, if_neg Bool.false_ne_true, if_neg hfree]

end Sys2Proof.Proofs
end

section
/-! PROOFS. Requests and expiries against the state their premises give: CLAIM (O6), the refusals of POST (O22), the
ends against a source out of service (O14), the expiry that returns the work (O17), EDIT_COMMIT (O36). -/

namespace Sys2Proof.Proofs

open Sys2Proof.Machine Sys2Proof.Stated Sys2Proof.Safety

/-! ## CLAIM -/

/-- Settles O6: the port passes the claim on, and the arbiter notes it. -/
theorem claimWaitsAtTheArbiter : Obligations.ClaimWaitsAtTheArbiter := by
  intro s h choice hr
  have hbytes : windowBytes (.claim h choice) = 1 + 3 := rfl
  have hexec : exec (.claim h choice) s = .next (request h 1 (fun x => x.setWaiting h (some choice)) s) := rfl
  refine ⟨(passedOn (.claim h choice) h s).setWaiting h (some choice), ?_, rfl, State.setWaiting_waitingClaim_self ..,
    fun x hx => State.setWaiting_waitingClaim_ne _ _ _ _ hx.symm, State.setPort_port_self ..,
    fun x hx => State.setPort_port_ne _ _ _ _ hx.symm⟩
  rw [hexec, request_of_ready hr hbytes]

/-! ## POST -/

theorem kindOf_val_watch {i : SourceId} (hi : i.val < 48) : kindOf i = .watch := if_pos hi

theorem takePost_badValue {h : HostId} {b : Byte} (argument : Word) (s : State) (hb : 63 < b.toNat ∨ b.toNat < 48) :
    takePost h b argument s = (s, .bare .badValue) := by
  rcases hb with hhigh | hlow
  · simp only [takePost, sourceOfByte_eq_none hhigh]
  · have hnamed : sourceOfByte b = some ⟨b.toNat, hlow.trans (by decide)⟩ := sourceOfByte_eq_some rfl
    simp only [takePost, hnamed, kindOf_val_watch (i := ⟨b.toNat, _⟩) hlow]

theorem takePost_notice {h : HostId} {b : Byte} (argument : Word) (s : State) (hb : b.toNat = 63) :
    takePost h b argument s = (s, .bare .denied) := by
  have hnamed : sourceOfByte b = some noticeSource := sourceOfByte_eq_some hb
  have hkind : kindOf noticeSource = .notice := by decide
  simp only [takePost, hnamed, hkind]

section Posted

variable {h : HostId} {b : Byte} {i : SourceId} {s : State} (hkind : kindOf i = .posted) (hb : b.toNat = i.val)
include hkind hb

theorem takePost_notAttached (argument : Word) (hattached : s.attached h = false) :
    takePost h b argument s = (s, .bare .notAttached) := by
  simp [takePost, sourceOfByte_eq_some hb, hkind, hattached]

theorem takePost_denied (argument : Word) (hattached : s.attached h = true)
    (hposter : hasHost (s.source i).config.posters h = false) : takePost h b argument s = (s, .bare .denied) := by
  simp [takePost, sourceOfByte_eq_some hb, hkind, hattached, hposter]

theorem takePost_wrongState (argument : Word) (hattached : s.attached h = true)
    (hposter : hasHost (s.source i).config.posters h = true) (hstate : (s.source i).state ≠ .armed) :
    takePost h b argument s = (s, .bare .wrongState) := by
  simp [takePost, sourceOfByte_eq_some hb, hkind, hattached, hposter, hstate]

end Posted

/-- Settles O22: the steps of R99 in order. -/
theorem postRefusedInOrder : Obligations.PostRefusedInOrder := by
  intro s h b argument hr
  have refused {a : Answer} (htake : takePost h b argument (passedOn (.post h b argument) h s) =
      (passedOn (.post h b argument) h s, a)) : OnlyAnswers (.post h b argument) h a s :=
    onlyAnswers_of_take hr (windowBytes_post ..) (exec_post ..) htake
  refine ⟨fun hb => refused (takePost_badValue _ _ hb), fun hb => refused (takePost_notice _ _ hb),
    fun i hkind hb => ⟨fun hattached => ?_, fun hattached hposter => ?_, fun hattached hposter hstate => ?_⟩⟩
  · exact refused (takePost_notAttached hkind hb argument hattached)
  · exact refused (takePost_denied hkind hb argument hattached hposter)
  · exact refused (takePost_wrongState hkind hb argument hattached hposter hstate)

/-! ## The end of a ticket against a source out of service -/

/-- R85: slot `k` is freed and the work of its ticket discarded. -/
def discardedIn (k : SlotId) (tk : Ticket) (s : State) : State :=
  (freeSlot k s).setSource tk.source (discardWork tk.host (s.source tk.source))

section OutOfService

variable {s : State} {k : SlotId} {tk : Ticket} (hstate : (s.source tk.source).state ≠ .armed)
include hstate

theorem endDone_of_not_armed : endDone k tk s = discardedIn k tk s := if_neg hstate

theorem endDefer_of_not_armed : endDefer k tk s = discardedIn k tk s := if_neg hstate

theorem endExpired_of_not_armed : endExpired k tk s = discardedIn k tk s := if_neg hstate

end OutOfService

/-- What the discarding leaves, in every state that has its slots and its sources. -/
theorem discardedIn_leaves (k : SlotId) (tk : Ticket) (s : State) :
    (discardedIn k tk s).slot k = { s.slot k with ticket := none } ∧
      (∀ j, j ≠ k → (discardedIn k tk s).slot j = s.slot j) ∧
      (discardedIn k tk s).source tk.source = discarded tk.host (s.source tk.source) ∧
      ∀ j, j ≠ tk.source → (discardedIn k tk s).source j = s.source j := by
  refine ⟨?_, fun j hj => ?_, State.setSource_source_self .., fun j hj => ?_⟩
  · exact (freeSlot_slot s k k).trans (if_pos rfl)
  · exact freeSlot_slot_ne s hj
  · exact setSource_other (freeSlot k s) _ hj.symm

/-- DONE and DEFER of an own ticket, its source out of service (R82, R84, R85). -/
theorem exec_end_discards {c : Instr} {h : HostId} {n : Word} {s : State} {tk : Ticket}
    (hc : c = .done h n ∨ c = .defer h n) (hlive : s.findLive n = some tk) (hown : tk.host = h)
    (hstate : (s.source tk.source).state ≠ .armed) :
    ∃ take : State → State × Answer,
      exec c s = .next (request h 2 (fun x => answerRequest h (take x)) s) ∧ windowBytes c = 2 + 3 ∧
        take (passedOn c h s) =
          (recomputeAtn (discardedIn (slotOf n) tk (passedOn c h s)), .okWith (wordBytes tk.number ++ [2])) := by
  have hlive' : (passedOn c h s).findLive n = some tk := hlive
  have hdisposition (kept : Disposition) : dispositionOf (passedOn c h s) tk.source kept = .discarded := if_neg hstate
  rcases hc with rfl | rfl
  · refine ⟨takeDone h n, exec_done h n s, rfl, ?_⟩
    rw [takeDone, withTicket_own _ hlive' hown, endDone_of_not_armed (s := passedOn (.done h n) h s) hstate,
      hdisposition]
    rfl
  · refine ⟨takeDefer h n, exec_defer h n s, rfl, ?_⟩
    rw [takeDefer, withTicket_own _ hlive' hown, endDefer_of_not_armed (s := passedOn (.defer h n) h s) hstate,
      hdisposition]
    rfl

/-- Settles O14: the slot freed and the work discarded, whichever end it is. -/
theorem endsAgainstASourceOutOfServiceDiscard : Obligations.EndsAgainstASourceOutOfServiceDiscard := by
  refine ⟨fun s h n tk c hc hr hlive hown hstate => ?_, fun s k tk d hk hdeadline hreached hstate => ?_⟩
  · obtain ⟨take, hexec, hbytes, htake⟩ := exec_end_discards hc hlive hown hstate
    obtain ⟨t, ht, hframe, hatn, hrestarted, hanswers⟩ := exec_request_recomputes_atn hr hbytes hexec htake rfl rfl rfl
    have hslot (j : SlotId) : t.slot j = (discardedIn (slotOf n) tk s).slot j := by
      rw [hframe]
      rfl
    have hsource (j : SourceId) : t.source j = (discardedIn (slotOf n) tk s).source j := by
      rw [hframe]
      rfl
    obtain ⟨hself, hothers, hdiscarded, hkept⟩ := discardedIn_leaves (slotOf n) tk s
    refine ⟨t, ht, ?_, (hslot _).trans hself, fun j hj => (hslot j).trans (hothers j hj), ?_,
      fun j hj => (hsource j).trans (hkept j hj), hatn, hrestarted, hanswers⟩
    · rw [hframe]
      rfl
    · rw [hsource, hdiscarded, hown]
  · have hexec := exec_leaseExpiry_of_reached hk hdeadline hreached
    rw [endExpired_of_not_armed hstate] at hexec
    obtain ⟨hself, hothers, hdiscarded, hkept⟩ := discardedIn_leaves k tk s
    exact ⟨_, hexec, rfl, (recomputeAtn_slot _ k).trans hself, fun j hj => (recomputeAtn_slot _ j).trans (hothers j hj),
      (recomputeAtn_source _ _).trans hdiscarded, fun j hj => (recomputeAtn_source _ j).trans (hkept j hj),
      atnShown_recomputeAtn _⟩

/-! ## The expiry that returns the work -/

theorem attempted_of_not_counts {h : HostId} {r : Source} (hcounts : countsAttempt h r = false) :
    attempted h r = r := by
  unfold countsAttempt at hcounts
  unfold attempted
  cases hmode : r.config.mode with
  | one => simp only [hmode] at hcounts; cases hcounts
  | each => simp only [hmode] at hcounts ⊢; simp [hcounts]

/-- R88: an expiry that does not reach the limit counts its attempt, where it counts, and checks the level. -/
theorem expireArmed_below_limit {tk : Ticket} {s : State} (hone : (s.source tk.source).attempts ≤ 7)
    (heach : (s.source tk.source).attemptsOf tk.host ≤ 7)
    (hlimit : reachesLimit tk.source tk.host (attempted tk.host (returned tk (s.source tk.source))) = false) :
    expireArmed tk s =
      levelCheck tk.source (s.setSource tk.source (attempted tk.host (returned tk (s.source tk.source)))) := by
  cases hcounts : countsAttempt tk.host (returned tk (s.source tk.source)) with
  | false =>
    simp only [expireArmed, returnWork_eq_returned, hcounts, Bool.false_eq_true, if_false,
      attempted_of_not_counts hcounts]
  | true =>
    have hcounted : countAttempt tk.host (returned tk (s.source tk.source)) =
        attempted tk.host (returned tk (s.source tk.source)) :=
      countAttempt_eq_attempted (by simpa using hone) (by simpa using heach) hcounts
    have habandons : abandons tk.source tk.host (attempted tk.host (returned tk (s.source tk.source))) = false :=
      Bool.eq_false_iff.mpr fun habandons => by
        rw [reachesLimit_iff.mpr ⟨(countsAttempt_attempted ..).trans hcounts, habandons⟩] at hlimit
        cases hlimit
    simp only [expireArmed, returnWork_eq_returned, hcounts, hcounted, habandons, if_true, Bool.false_eq_true, if_false]

/-- Settles O17: the freed slot, the returned work with its attempt, and the level check. -/
theorem leaseExpiryReturnsTheWork : Obligations.LeaseExpiryReturnsTheWork := by
  intro s k tk d hkept hk hdeadline hreached harmed hlimit
  obtain ⟨-, -, -, -, hone, heach⟩ := hkept
  have hended : endExpired k tk s =
      endedWith k tk.source (attempted tk.host (returned tk (s.source tk.source))) s :=
    (endExpired_of_armed harmed).trans (expireArmed_below_limit (s := freeSlot k s) hone (heach tk.host) hlimit)
  have hexec := exec_leaseExpiry_of_reached hk hdeadline hreached
  rw [hended] at hexec
  refine ⟨_, hexec, ?_, ?_, fun j hj => ?_, fun j hj => ?_, ?_, atnShown_recomputeAtn _⟩
  · rw [endedWith_frame]
    rfl
  · rw [recomputeAtn_slot, endedWith_slot_self]
  · rw [recomputeAtn_slot, endedWith_slot_ne _ _ _ _ hj]
  · rw [recomputeAtn_source, endedWith_source_ne _ _ _ _ hj]
  · rw [recomputeAtn_source, endedWith_source_self]

/-! ## EDIT_COMMIT -/

theorem exec_editCommit (h : HostId) (s : State) :
    exec (.editCommit h) s = .next (request h 0 (takeEditCommit h) s) := rfl

theorem windowBytes_editCommit (h : HostId) : windowBytes (.editCommit h) = 0 + 3 := rfl

/-- Settles O36: the holder decides whether the port answers or the commit begins. -/
theorem editCommitBeginsTheCommit : Obligations.EditCommitBeginsTheCommit := by
  intro s h hr
  refine ⟨fun hother => ?_, fun hheld => ?_⟩
  · have htake : takeEditCommit h (passedOn (.editCommit h) h s) =
        answerRequest h (passedOn (.editCommit h) h s, .bare .noSession) :=
      if_pos (isHolder_eq_false (s := passedOn (.editCommit h) h s) hother)
    have hexec : exec (.editCommit h) s =
        .next (request h 0 (fun x => answerRequest h (x, .bare .noSession)) s) := by
      rw [exec_editCommit, request_of_ready hr (windowBytes_editCommit h), htake,
        request_of_ready hr (windowBytes_editCommit h)]
    exact onlyAnswers_of_take (take := fun x => (x, .bare .noSession)) hr (windowBytes_editCommit h) hexec rfl
  · have htake : takeEditCommit h (passedOn (.editCommit h) h s) = beginCommit h (passedOn (.editCommit h) h s) :=
      if_neg (by rw [isHolder_eq_true (s := passedOn (.editCommit h) h s) hheld]; decide)
    refine ⟨beginCommit h (passedOn (.editCommit h) h s), ?_, rfl, rfl, setEditState_host_self .., fun x hx => ?_,
      State.setPort_port_self .., fun x hx => State.setPort_port_ne _ _ _ _ hx.symm⟩
    · rw [exec_editCommit, request_of_ready hr (windowBytes_editCommit h), htake]
    · exact setEditState_host_ne _ _ hx

end Sys2Proof.Proofs
end

section
/-! PROOFS. The bytes of the part's frames, both ways: the source configuration block (O32), the judging of a window's
bytes (O48), and the frames of requests (O52). -/

namespace Sys2Proof.Proofs

open Sys2Proof.Machine Sys2Proof.Stated Sys2Proof.Safety

/-! ## The source configuration block -/

/-- Byte 0 of a block, its five upper bits 0, is that of the fields read from it. -/
theorem flagBits_of_parse (b : Byte) (hzero : b.extractLsb' 3 5 = 0) :
    0#5 ++ BitVec.ofBool (b.getLsbD 2) ++ (if b.getLsbD 1 then Mode.each else Mode.one).code ++
      BitVec.ofBool (b.getLsbD 0) = b := by
  revert b
  decide

theorem laneRankByte_of_parse (b : Byte) (h7 : b.getLsbD 7 = false) :
    0#1 ++ BitVec.ofNat 3 (b.extractLsb' 4 3).toFin.val ++ BitVec.ofNat 4 (b.extractLsb' 0 4).toFin.val = b := by
  revert b
  decide

theorem code_of_triggerOf {c : BitVec 3} {t : Trigger} (ht : triggerOf c = some t) : t.code = c := by
  unfold triggerOf at ht
  split_ifs at ht <;> cases ht <;> exact Eq.symm ‹_›

theorem retryTriggerByte_of_parse (b : Byte) (h7 : b.getLsbD 7 = false) (h3 : b.getLsbD 3 = false) :
    0#1 ++ BitVec.ofNat 3 (b.extractLsb' 4 3).toFin.val ++ 0#1 ++ b.extractLsb' 0 3 = b := by
  revert b
  decide

theorem hostSets_of_parse (b : Byte) : b.extractLsb' 4 4 ++ b.extractLsb' 0 4 = b := by
  revert b
  decide

theorem byteOf_toNat (b : Byte) : byteOf b.toNat = b := BitVec.ofNat_toNat .. |>.trans (BitVec.setWidth_eq b)

theorem wordOfNat_wordOf (a b : Byte) : wordOfNat (wordOf a b).toNat = [a, b] := by
  rw [wordOfNat, BitVec.ofNat_toNat, BitVec.setWidth_eq, wordBytes_wordOf]

/-- Bytes that are read as a configuration are its block. -/
theorem sourceBlock_of_parseSourceBlock {bytes : List Byte} {c : SourceConfig} (hc : parseSourceBlock bytes = some c) :
    sourceBlock c = bytes := by
  unfold parseSourceBlock at hc
  split at hc
  · split at hc
    · next hfixed =>
      obtain ⟨hzero, hlane7, hretry7, hretry3⟩ := hfixed
      split at hc
      · cases hc
      · next htrigger =>
        split at hc
        · cases hc
          simp only [sourceBlock, flagBits_of_parse _ hzero, laneRankByte_of_parse _ hlane7, code_of_triggerOf htrigger,
            retryTriggerByte_of_parse _ hretry7 hretry3, hostSets_of_parse, byteOf_toNat, wordBytes_wordOf,
            wordOfNat_wordOf]
          rfl
        · cases hc
    · cases hc
  · cases hc

/-- Settles O32: the block is its table's bytes, and the reading of a block is its inverse. -/
theorem sourceBlocksCarryTheConfiguration : Obligations.SourceBlocksCarryTheConfiguration := by
  refine ⟨fun c => ⟨sourceBlock_eq_configBytes c, rfl⟩, fun c hlease => ?_, fun bytes c hc => ?_⟩
  · rw [← sourceBlock_eq_configBytes, parseSourceBlock_sourceBlock hlease]
  · rw [← sourceBlock_eq_configBytes, sourceBlock_of_parseSourceBlock hc]

/-! ## Codes and lengths -/

theorem two_lt_kind_iff {kind : Byte} : 2 < kind.toNat ↔ ¬ kind = 0 ∧ ¬ kind = 1 ∧ ¬ kind = 2 := by
  revert kind
  decide

theorem stageLengthAllowed_iff {operands : List Byte} : stageLengthAllowed operands = true ↔ StageLength operands := by
  cases operands with
  | nil => simp [stageLengthAllowed, StageLength]
  | cons kind rest =>
    simp only [stageLengthAllowed, StageLength, List.cons.injEq]
    split_ifs <;> simp_all [two_lt_kind_iff, or_assoc]

/-- The table's row of a code gives the length that R161 admits for it. -/
theorem lengthAllowed_of_mem {code : Byte} {n : Nat} (hrow : (code, n) ∈ requestTable) (operands : List Byte) :
    lengthAllowed code operands = some (operands.length == n) := by
  have hrows : ∀ row ∈ requestTable, lengthAllowed row.1 operands = some (operands.length == row.2) := by
    simp [requestTable, lengthAllowed]
  exact hrows _ hrow

/-- A code for which R161 admits some length stands in the table, or is EDIT_STAGE's. -/
theorem namesRequest_of_lengthAllowed {code : Byte} {operands : List Byte} {b : Bool}
    (h : lengthAllowed code operands = some b) : NamesRequest code := by
  refine or_iff_not_imp_left.mpr fun hstage => ?_
  simp only [lengthAllowed, hstage, if_false] at h
  simp only [requestTable, List.mem_cons, Prod.mk.injEq, List.not_mem_nil, or_false]
  split_ifs at h with h0 h1 h2 h3
  · exact ⟨0, by simpa using h0⟩
  · exact ⟨1, by simpa using h1⟩
  · exact ⟨2, by simpa using h2⟩
  · exact ⟨3, by simpa using h3⟩

theorem lengthAllowed_eq_none_iff {code : Byte} {operands : List Byte} :
    lengthAllowed code operands = none ↔ ¬ NamesRequest code := by
  constructor
  · rintro hnone (rfl | ⟨n, hrow⟩)
    · cases hnone
    · rw [lengthAllowed_of_mem hrow] at hnone
      cases hnone
  · intro hnot
    cases hb : lengthAllowed code operands with
    | none => rfl
    | some b => exact absurd (namesRequest_of_lengthAllowed hb) hnot

theorem lengthAllowed_eq_true_iff {code : Byte} {operands : List Byte} :
    lengthAllowed code operands = some true ↔ LengthAllowed code operands := by
  constructor
  · intro h
    rcases namesRequest_of_lengthAllowed h with rfl | ⟨n, hrow⟩
    · exact .inl ⟨rfl, stageLengthAllowed_iff.mp (Option.some.inj h)⟩
    · rw [lengthAllowed_of_mem hrow, Option.some.injEq, beq_iff_eq] at h
      exact .inr (h ▸ hrow)
  · rintro (⟨rfl, hlength⟩ | hrow)
    · exact congrArg some (stageLengthAllowed_iff.mpr hlength)
    · rw [lengthAllowed_of_mem hrow, beq_self_eq_true]

/-- A code that names a request, with operands of a length it does not allow. -/
theorem lengthAllowed_eq_false {code : Byte} {operands : List Byte} (hnames : NamesRequest code)
    (hnot : ¬ LengthAllowed code operands) : lengthAllowed code operands = some false := by
  cases hb : lengthAllowed code operands with
  | none => exact absurd hnames (lengthAllowed_eq_none_iff.mp hb)
  | some b =>
    cases b with
    | false => rfl
    | true => exact absurd (lengthAllowed_eq_true_iff.mp hb) hnot

/-! ## The judging of a frame -/

/-- Checks 3 to 5 of R151 alone decide on a frame of the length that its length byte gives. -/
theorem judgeFrame_complete {code len check : Byte} {operands : List Byte} (hlen : len.toNat ≤ 40)
    (hoperands : operands.length = len.toNat) :
    judgeFrame (code :: len :: (operands ++ [check])) 0 = judgeComplete code len operands check := by
  have htake : (operands ++ [check]).take len.toNat = operands := by rw [← hoperands, List.take_left]
  have hdrop : (operands ++ [check]).drop len.toNat = [check] := by rw [← hoperands, List.drop_left]
  simp [judgeFrame, Config.maxOperands, hoperands, htake, hdrop, Nat.not_lt.mpr hlen]

section Judged

variable {code len check : Byte} {operands : List Byte}

theorem judgeComplete_of_check (hcheck : check ≠ crc8 (code :: len :: operands)) :
    judgeComplete code len operands check = .badFrame := if_pos hcheck

variable (hcheck : check = crc8 (code :: len :: operands))
include hcheck

theorem judgeComplete_unknown (hnames : ¬ NamesRequest code) : judgeComplete code len operands check = .unknown := by
  rw [judgeComplete, if_neg (not_not.mpr hcheck), lengthAllowed_eq_none_iff.mpr hnames]

theorem judgeComplete_length (hnames : NamesRequest code) (hnot : ¬ LengthAllowed code operands) :
    judgeComplete code len operands check = .badFrame := by
  rw [judgeComplete, if_neg (not_not.mpr hcheck), lengthAllowed_eq_false hnames hnot]

theorem judgeComplete_good (hallowed : LengthAllowed code operands) :
    judgeComplete code len operands check = .good code operands := by
  rw [judgeComplete, if_neg (not_not.mpr hcheck), lengthAllowed_eq_true_iff.mpr hallowed]

end Judged

/-- Settles O48: checks 1 and 2 go by lengths alone, and checks 3 to 5 are those of a complete frame. -/
theorem framesAreJudgedInOrder : Obligations.FramesAreJudgedInOrder := by
  refine ⟨fun e => rfl, fun code e => rfl, fun code len rest e => ⟨fun hlong => if_pos hlong, fun hlen hshort => ?_,
    fun hlen hover => ?_, fun hlen hwhole hbits => ?_, fun operands check hlen hoperands hrest he => ?_⟩⟩
  · simp [judgeFrame, Config.maxOperands, Nat.not_lt.mpr hlen, hshort]
  · simp [judgeFrame, Config.maxOperands, Nat.not_lt.mpr hlen, hover, Nat.not_lt.mpr hover.le]
  · simp [judgeFrame, Config.maxOperands, Nat.not_lt.mpr hlen, hwhole, hbits]
  · subst hrest he
    rw [judgeFrame_complete hlen hoperands]
    exact ⟨judgeComplete_of_check, judgeComplete_unknown, judgeComplete_length, judgeComplete_good⟩

/-! ## Request frames -/

/-- A window that is judged good holds a complete frame that passes the checks of R151. -/
theorem frame_of_good {bytes : List Byte} {e : Nat} {code : Byte} {operands : List Byte}
    (hgood : judgeFrame bytes e = .good code operands) :
    bytes = frameOf code operands ∧ e = 0 ∧ lengthAllowed code operands = some true := by
  unfold judgeFrame at hgood
  split at hgood
  · next c len rest =>
    split_ifs at hgood with hlong hshort hover
    unfold judgeComplete at hgood
    split_ifs at hgood with hcheck
    split at hgood
    · cases hgood
    · cases hgood
    · next hallowed =>
      cases hgood
      have hrest : rest.length = len.toNat + 1 := by omega
      obtain ⟨check, hlast⟩ : ∃ check, rest.drop len.toNat = [check] :=
        List.length_eq_one_iff.mp (by rw [List.length_drop]; omega)
      have hlen : BitVec.ofNat 8 (rest.take len.toNat).length = len := by
        rw [List.length_take, hrest, Nat.min_eq_left (by omega)]
        exact byteOf_toNat len
      refine ⟨?_, by omega, hallowed⟩
      rw [hlast, not_not] at hcheck
      simp only [frameOf, hlen, List.cons_append, List.cons.injEq, true_and]
      rw [← hcheck]
      calc rest = rest.take len.toNat ++ rest.drop len.toNat := (List.take_append_drop ..).symm
        _ = _ := by rw [hlast]; rfl
  · cases hgood

theorem operands_length_le {code : Byte} {operands : List Byte} (hallowed : LengthAllowed code operands) :
    operands.length ≤ 40 := by
  rcases hallowed with ⟨-, hstage⟩ | hrow
  · have := Laws.FrameFits.stageLength_le (stageLengthAllowed_iff.mpr hstage)
    omega
  · have hrows : ∀ row ∈ requestTable, row.2 ≤ 40 := by decide
    exact hrows _ hrow

/-- R151: the frame of operands of an admitted length is good. -/
theorem judgeFrame_frameOf {code : Byte} {operands : List Byte} (hallowed : LengthAllowed code operands) :
    judgeFrame (frameOf code operands) 0 = .good code operands := by
  have hle := operands_length_le hallowed
  have hlen : (BitVec.ofNat 8 operands.length).toNat = operands.length := by
    rw [BitVec.toNat_ofNat]
    omega
  rw [← judgeComplete_good (len := BitVec.ofNat 8 operands.length) rfl hallowed,
    ← judgeFrame_complete (hlen.trans_le hle) hlen.symm]
  rfl

/-- The operands of a well-formed request have an admitted length. -/
theorem lengthAllowed_of_requestParts {i : Instr} {h : HostId} {code : Byte} {operands : List Byte}
    (hparts : requestParts i = some (h, code, operands)) (hwell : i.wellFormed = true) :
    LengthAllowed code operands := by
  rw [← lengthAllowed_eq_true_iff]
  cases i with
  | editStage x kind number record => cases hparts; exact congrArg some hwell
  | _ => cases hparts <;> rfl

/-- The frame of a request spells it (R160, R161). -/
theorem decodeRequest_of_requestParts {i : Instr} {h : HostId} {code : Byte} {operands : List Byte}
    (hparts : requestParts i = some (h, code, operands)) : decodeRequest h code operands = some i := by
  cases i with
  | _ => cases hparts <;> simp [decodeRequest, wordBytes, wordOf_extractLsb']

theorem take_of_length_le_three (operands : List Byte) (hle : operands.length ≤ 3) :
    ∃ a b c : Byte, operands = [a, b, c].take operands.length := by
  match operands, hle with
  | [], _ => exact ⟨0, 0, 0, rfl⟩
  | [a], _ => exact ⟨a, 0, 0, rfl⟩
  | [a, b], _ => exact ⟨a, b, 0, rfl⟩
  | [a, b, c], _ => exact ⟨a, b, c, rfl⟩

/-- Where R161 admits the operands' length, they spell a request. -/
theorem decodeRequest_isSome (h : HostId) {code : Byte} {operands : List Byte}
    (hallowed : LengthAllowed code operands) : (decodeRequest h code operands).isSome = true := by
  rcases hallowed with ⟨rfl, kind, rest, rfl, hlength⟩ | hrow
  · cases rest with
    | nil => simp at hlength
    | cons number record => rfl
  · have hshort : ∀ row ∈ requestTable, row.2 ≤ 3 := by decide
    have hspelled (a b c : Byte) :
        (requestTable.all fun row => (decodeRequest h row.1 ([a, b, c].take row.2)).isSome) = true := rfl
    obtain ⟨a, b, c, hoperands⟩ := take_of_length_le_three operands (hshort _ hrow)
    rw [hoperands]
    exact List.all_eq_true.mp (hspelled a b c) _ hrow

/-- A request that operands of an admitted length spell is well formed. -/
theorem wellFormed_of_lengthAllowed {i : Instr} {h : HostId} {code : Byte} {operands : List Byte}
    (hparts : requestParts i = some (h, code, operands)) (hallowed : lengthAllowed code operands = some true) :
    i.wellFormed = true := by
  cases i with
  | editStage x kind number record => cases hparts; exact Option.some.inj hallowed
  | frameRejected | incompleteFrame => cases hparts
  | _ => rfl

theorem wordBytes_eq_twoBytes_toNat (w : Word) : wordBytes w = twoBytes w.toNat := by
  rw [← wordBytes_eq_twoBytes, BitVec.ofNat_toNat, BitVec.setWidth_eq]

/-- Settles O52: the table's rows, the frame of each request, and the request of each good window. -/
theorem requestFramesComeBack : Obligations.RequestFramesComeBack := by
  refine ⟨fun h a b n v record => ?_, fun i h code operands hparts hwell => ?_, fun bytes e h code operands hgood => ?_⟩
  · simp [requestParts, wordBytes_eq_twoBytes_toNat]
  · exact ⟨judgeFrame_frameOf (lengthAllowed_of_requestParts hparts hwell), decodeRequest_of_requestParts hparts⟩
  · obtain ⟨hbytes, he, hallowed⟩ := frame_of_good hgood
    have hadmitted := lengthAllowed_eq_true_iff.mp hallowed
    obtain ⟨i, hi⟩ := Option.isSome_iff_exists.mp (decodeRequest_isSome h hadmitted)
    have hparts := requestParts_of_decodeRequest i hi
    exact ⟨hbytes, he, hadmitted, i, hi, wellFormed_of_lengthAllowed hparts hallowed, hparts⟩

end Sys2Proof.Proofs
end

section
/-! PROOFS. Windows on a port: those that it rejects or that are incomplete (O49, and EDIT_STAGE of a wrong length in
O31), those that it refuses or ignores (O50), and answer reads (O51). -/

namespace Sys2Proof.Proofs

open Sys2Proof.Machine Sys2Proof.Stated Sys2Proof.Safety

/-! ## The commands that carry a window -/

/-- A command whose whole effect is a new port of `h`. -/
theorem completes_setPort {c : Instr} {h : HostId} {s : State} {p : Port} (hexec : exec c s = .next (s.setPort h p)) :
    ∃ t, exec c s = .next t ∧ t = { s with ports := t.ports } ∧ t.port h = p ∧ ∀ x, x ≠ h → t.port x = s.port x :=
  ⟨_, hexec, rfl, State.setPort_port_self .., fun _ hx => State.setPort_port_ne _ _ _ _ hx.symm⟩

theorem exec_of_opensRequest {c : Instr} {h : HostId} {bytes : List Byte} {e : Nat} (hc : OpensRequest c h bytes e)
    (s : State) : exec c s = requestWindow h bytes e s := by
  rcases hc with rfl | rfl <;> rfl

theorem windowBytes_of_opensRequest {c : Instr} {h : HostId} {bytes : List Byte} {e : Nat}
    (hc : OpensRequest c h bytes e) : windowBytes c = bytes.length := by
  rcases hc with rfl | rfl <;> rfl

/-- A request is a window of its frame, and one that R151 rejects where EDIT_STAGE's operands have a wrong length. -/
theorem exec_of_requestParts {c : Instr} {h : HostId} {code : Byte} {operands : List Byte}
    (hparts : requestParts c = some (h, code, operands)) (s : State) :
    (∃ take, exec c s = .next (request h operands.length take s)) ∨
      exec c s = .next (rejectFrame h (requestFrame code operands) .badFrame s) := by
  cases c with
  | editStage x kind number record =>
    cases hparts
    by_cases hlength : stageLengthAllowed (kind :: number :: record) = true
    · exact .inl ⟨_, if_pos hlength⟩
    · exact .inr (if_neg hlength)
  | _ => cases hparts <;> exact .inl ⟨_, rfl⟩

/-- The request that a window of bytes spells is carried out as its own command is. -/
theorem execRequest_eq_exec {i : Instr} {x : HostId × Byte × List Byte} (hparts : requestParts i = some x) (s : State) :
    execRequest i s = exec i s := by
  cases i with
  | _ => cases hparts <;> rfl

theorem requestWindow_of_good {bytes : List Byte} {e : Nat} {code : Byte} {operands : List Byte} {h : HostId}
    {i : Instr} (hgood : judgeFrame bytes e = .good code operands) (hi : decodeRequest h code operands = some i)
    (s : State) :
    requestWindow h bytes e s = exec i s := by
  simp only [requestWindow, hgood, hi, execRequest_eq_exec (requestParts_of_decodeRequest i hi)]

theorem formAnswer_port_ne {h x : HostId} (a : Answer) (s : State) (hx : x ≠ h) :
    (formAnswer h a s).port x = s.port x := State.setPort_port_ne _ _ _ _ hx.symm

/-! ## Windows that a ready port judges -/

/-- The port as it has judged a frame of the window of `c`, any unread answer disposed of (R148, R151). -/
theorem disposeAnswer_judged {c : Instr} {h : HostId} {s : State} {bytes : List Byte} (hr : Ready s h)
    (hbytes : windowBytes c = bytes.length) (a : Answer) (atn attached : Bool) :
    let p := ((((s.port h).putZeros bytes.length).openRequest.clockIn bytes).disposeAnswer)
    p.answer a (flagsByte atn attached p.prevUnread p.refused) =
      answeredPort (s.port h) a atn attached (unread s h) (zerosOut c) := by
  obtain ⟨-, hidle | hanswered⟩ := hr
  · have hread : (PortState.idle == PortState.answered) = false := rfl
    simp [Port.putZeros, Port.openRequest, Port.clockIn, Port.disposeAnswer, Port.answer, answeredPort, unread,
      zerosOut, hbytes, hidle, hread]
  · simp [Port.putZeros, Port.openRequest, Port.clockIn, Port.disposeAnswer, Port.answer, answeredPort, unread,
      zerosOut, hbytes, hanswered]

/-- R151: a ready port answers a rejected frame itself, and nothing else changes. -/
theorem rejectFrame_answers {c : Instr} {h : HostId} {s : State} {bytes : List Byte} (hr : Ready s h)
    (hbytes : windowBytes c = bytes.length) (st : Status) : Answers c h (.bare st) s (rejectFrame h bytes st s) := by
  have hworking : ¬ ((s.port h).putZeros bytes.length).state = .working := state_ne_working_of_ready hr
  have htaken : rejectFrame h bytes st s =
      formAnswer h (.bare st)
        (s.setPort h ((((s.port h).putZeros bytes.length).openRequest.clockIn bytes).disposeAnswer)) := by
    rw [rejectFrame, windowIgnored_of_ready hr]
    exact if_neg hworking
  constructor
  · rw [htaken, formAnswer_atnOf, formAnswer_attached, formAnswer, State.setPort_port_self, answerFlags,
      State.setPort_port_self]
    exact disposeAnswer_judged hr hbytes ..
  · intro x hx
    rw [htaken, formAnswer_port_ne _ _ hx, State.setPort_port_ne _ _ _ _ hx.symm]

theorem exec_rejects {c : Instr} {h : HostId} {s : State} {bytes : List Byte} {st : Status} (hr : Ready s h)
    (hbytes : windowBytes c = bytes.length) (hexec : exec c s = .next (rejectFrame h bytes st s)) :
    ∃ t, exec c s = .next t ∧ t = { s with ports := t.ports } ∧ Answers c h (.bare st) s t :=
  ⟨_, hexec, rejectFrame_frame .., rejectFrame_answers hr hbytes st⟩

/-- R150: a ready port discards an incomplete frame. -/
theorem dropFrame_of_ready {c : Instr} {h : HostId} {s : State} {bytes : List Byte} (hr : Ready s h)
    (hbytes : windowBytes c = bytes.length) :
    dropFrame h bytes s =
      s.setPort h { s.port h with priorState := none, receiveBuffer := [], shiftedOut := zerosOut c } := by
  have hworking : ¬ ((s.port h).putZeros bytes.length).state = .working := state_ne_working_of_ready hr
  rw [dropFrame, windowIgnored_of_ready hr]
  refine (if_neg hworking).trans (congrArg _ ?_)
  obtain ⟨-, hidle | hanswered⟩ := hr
  · simp [Port.putZeros, Port.openRequest, Port.clockIn, Port.discardFrame, zerosOut, hbytes, hidle]
  · simp [Port.putZeros, Port.openRequest, Port.clockIn, Port.discardFrame, zerosOut, hbytes, hanswered]

/-! ## Windows opened by neither direction byte -/

theorem windowIgnored_of_listens {s : State} {h : HostId} (hl : Listens s h) (hdown : (s.port h).state ≠ .down) :
    windowIgnored s h = false := windowIgnored_eq_false.mpr ⟨hl.1, hdown, hl.2⟩

theorem length_freeBytes (first count : Nat) : (freeBytes first count).length = count := by simp [freeBytes]

theorem endIgnored_of_listens {s : State} {h : HostId} (hl : Listens s h) :
    (s.port h).endIgnored = { s.port h with shiftedOut := [] } := by
  rw [Port.endIgnored, ← hl.2]

/-- Settles O49: the judging of a window decides what its port makes of it. -/
theorem rejectedAndIncompleteWindows : Obligations.RejectedAndIncompleteWindows := by
  refine ⟨fun s h bytes e c st hc hr hverdict => ?_, fun s h bytes e c hc hr hverdict => ?_,
    fun s h bytes e c i code operands hc hgood hparts => ?_, fun s h bytes e => rfl,
    fun s h d bytes e hl hdown hrequest hanswer => ?_, fun s h bytes e hl hdown => ?_⟩
  · refine exec_rejects hr (windowBytes_of_opensRequest hc) ((exec_of_opensRequest hc s).trans ?_)
    rcases hverdict with ⟨hverdict, rfl⟩ | ⟨hverdict, rfl⟩ <;> simp only [requestWindow, hverdict]
  · refine completes_setPort ((exec_of_opensRequest hc s).trans ?_)
    simp only [requestWindow, hverdict, dropFrame_of_ready hr (windowBytes_of_opensRequest hc)]
  · rw [exec_of_opensRequest hc, requestWindow_of_good hgood (decodeRequest_of_requestParts hparts)]
  · have hexec : exec (.incompleteFrame h { direction := some d, bytes := bytes } e) s =
        .next (otherWindow h bytes.length s) := (if_neg hrequest).trans (if_neg hanswer)
    have hother : otherWindow h bytes.length s =
        (s.setPort h { s.port h with shiftedOut := 0 :: freeBytes s.drawn bytes.length }).setDrawn
          (s.drawn + bytes.length) := by
      rw [otherWindow, windowIgnored_of_listens hl hdown]
      rfl
    rw [hother] at hexec
    refine ⟨_, hexec, rfl, fun x hx => ?_, _, length_freeBytes s.drawn bytes.length, ?_⟩
    · rw [State.setDrawn_port, State.setPort_port_ne _ _ _ _ hx.symm]
    · rw [State.setDrawn_port, State.setPort_port_self]
  · have hexec : exec (.incompleteFrame h { direction := none, bytes := bytes } e) s =
        .next (s.setPort h { s.port h with shiftedOut := [] }) := by
      rw [← endIgnored_of_listens hl]
      rfl
    obtain ⟨t, ht, hframe, hself, hothers⟩ := completes_setPort hexec
    exact ⟨t, ht, hframe, hothers, hself⟩

/-! ## Windows that a port refuses or ignores -/

/-- What a window of `h`'s port, `n` bytes clocked after its direction byte, makes of `s` where the port ignores it, and
where the port refuses it. -/
def Unread (h : HostId) (n : Nat) (s t : State) : Prop :=
  (windowIgnored s h = true → t = ignoreWindow h s) ∧
    (windowIgnored s h = false → (s.port h).state = .working → t = s.setPort h ((s.port h).putZeros n).refuse)

theorem unread_request (h : HostId) (n : Nat) (take : State → State) (s : State) :
    Unread h (n + 3) s (request h n take s) := by
  refine ⟨fun hignored => if_pos hignored, fun hlistens hworking => ?_⟩
  rw [request, hlistens]
  exact if_pos hworking

theorem unread_rejectFrame (h : HostId) (bytes : List Byte) (st : Status) (s : State) :
    Unread h bytes.length s (rejectFrame h bytes st s) := by
  refine ⟨fun hignored => if_pos hignored, fun hlistens hworking => ?_⟩
  rw [rejectFrame, hlistens]
  exact if_pos hworking

theorem unread_dropFrame (h : HostId) (bytes : List Byte) (s : State) :
    Unread h bytes.length s (dropFrame h bytes s) := by
  refine ⟨fun hignored => if_pos hignored, fun hlistens hworking => ?_⟩
  rw [dropFrame, hlistens]
  exact if_pos hworking

theorem unread_workingWindow (h : HostId) (n : Nat) (s : State) : Unread h n s (workingWindow h n s) := by
  refine ⟨fun hignored => if_pos hignored, fun hlistens hworking => ?_⟩
  rw [workingWindow, hlistens]
  exact if_pos hworking

theorem exec_unread_of_requestParts {c : Instr} {h : HostId} {code : Byte} {operands : List Byte}
    (hparts : requestParts c = some (h, code, operands)) (s : State) :
    ∃ t, exec c s = .next t ∧ Unread h (operands.length + 3) s t := by
  rcases exec_of_requestParts hparts s with ⟨take, hexec⟩ | hexec
  · exact ⟨_, hexec, unread_request h operands.length take s⟩
  · refine ⟨_, hexec, ?_⟩
    rw [← Laws.FrameFits.length_requestFrame code operands]
    exact unread_rejectFrame h _ .badFrame s

theorem requestWindow_unread (h : HostId) (bytes : List Byte) (e : Nat) (s : State) :
    ∃ t, requestWindow h bytes e s = .next t ∧ Unread h bytes.length s t := by
  cases hverdict : judgeFrame bytes e with
  | incomplete => exact ⟨_, by simp only [requestWindow, hverdict], unread_dropFrame h bytes s⟩
  | badFrame => exact ⟨_, by simp only [requestWindow, hverdict], unread_rejectFrame h bytes .badFrame s⟩
  | unknown => exact ⟨_, by simp only [requestWindow, hverdict], unread_rejectFrame h bytes .unknown s⟩
  | good code operands =>
    obtain ⟨rfl, -, hallowed⟩ := frame_of_good hverdict
    obtain ⟨i, hi⟩ := Option.isSome_iff_exists.mp (decodeRequest_isSome h (lengthAllowed_eq_true_iff.mp hallowed))
    rw [requestWindow_of_good hverdict hi, show (frameOf code operands).length = operands.length + 3 from
      Laws.FrameFits.length_requestFrame code operands]
    exact exec_unread_of_requestParts (requestParts_of_decodeRequest i hi) s

/-- A command that carries a window of a request or opened by 0x5A: where the port ignores or refuses it, its bytes do
not matter. -/
theorem exec_unread {c : Instr} {h : HostId}
    (hc : (∃ code operands, requestParts c = some (h, code, operands)) ∨ (∃ bytes e, OpensRequest c h bytes e) ∨
      ∃ n, c = .frameWhileWorking { host := h, count := n }) (s : State) :
    ∃ t, exec c s = .next t ∧ Unread h (windowBytes c) s t := by
  rcases hc with ⟨code, operands, hparts⟩ | ⟨bytes, e, hc⟩ | ⟨n, rfl⟩
  · have hbytes : windowBytes c = operands.length + 3 := by
      cases c with
      | frameRejected | incompleteFrame | frameWhileWorking => cases hparts
      | _ => simp only [windowBytes, hparts, Option.elim]
    rw [hbytes]
    exact exec_unread_of_requestParts hparts s
  · rw [exec_of_opensRequest hc, windowBytes_of_opensRequest hc]
    exact requestWindow_unread h bytes e s
  · exact ⟨_, rfl, unread_workingWindow h n s⟩

theorem windowIgnored_iff {s : State} {h : HostId} :
    windowIgnored s h = true ↔ s.sampled = false ∨ (s.port h).state = .down ∨ (s.port h).ignoring = true := by
  simp [windowIgnored, or_assoc]

/-- An ignored window, whatever it carries. -/
theorem exec_of_windowIgnored {c : Instr} {h : HostId} {s : State} (hignored : windowIgnored s h = true)
    (hc : (∃ code operands, requestParts c = some (h, code, operands)) ∨ (∃ bytes e, c = .frameRejected h bytes e) ∨
      (∃ window e, c = .incompleteFrame h window e) ∨ (∃ n, c = .frameWhileWorking { host := h, count := n }) ∨
      ∃ n, c = .answerRead h n) : exec c s = .next (ignoreWindow h s) := by
  have opened (hopened : (∃ code operands, requestParts c = some (h, code, operands)) ∨
      (∃ bytes e, OpensRequest c h bytes e) ∨ ∃ n, c = .frameWhileWorking { host := h, count := n }) :
      exec c s = .next (ignoreWindow h s) := by
    obtain ⟨t, hexec, hignores, -⟩ := exec_unread hopened s
    rw [hexec, hignores hignored]
  rcases hc with hparts | ⟨bytes, e, hc⟩ | ⟨⟨direction, bytes⟩, e, rfl⟩ | hc | ⟨n, rfl⟩
  · exact opened (.inl hparts)
  · exact opened (.inr (.inl ⟨bytes, e, .inl hc⟩))
  · cases direction with
    | none => rfl
    | some d =>
      by_cases hrequest : d = 0x5A
      · exact opened (.inr (.inl ⟨bytes, e, .inr (by rw [hrequest])⟩))
      by_cases hanswer : d = 0xC3
      · subst hanswer
        exact congrArg _ (if_pos hignored)
      · exact ((if_neg hrequest).trans (if_neg hanswer)).trans (congrArg _ (if_pos hignored))
  · exact opened (.inr (.inr hc))
  · exact congrArg _ (if_pos hignored)

/-- Settles O50: a port that works refuses the window, and one that ignores it counts its bytes for nothing. -/
theorem workingAndDownPortsTakeNoRequest : Obligations.WorkingAndDownPortsTakeNoRequest := by
  refine ⟨fun s h c hl hworking hc => ?_, fun s h c hignored hc => ?_⟩
  · obtain ⟨t, hexec, -, hrefuses⟩ := exec_unread hc s
    have hlistens := windowIgnored_of_listens hl (by rw [hworking]; decide)
    exact completes_setPort (hexec.trans (congrArg _ (hrefuses hlistens hworking)))
  · exact completes_setPort (exec_of_windowIgnored (windowIgnored_iff.mpr hignored) hc)

/-! ## Answer reads -/

/-- R148: what is shifted out of a frame is its bytes, and 0x00 after them. -/
theorem shiftOut_eq_outBytes (frame : List Byte) (count : Nat) : shiftOut frame count = outBytes frame count := by
  apply List.ext_getElem
  · simp [shiftOut, outBytes]
    omega
  · intro n hn hcount
    simp only [shiftOut, outBytes, List.getElem_append, List.getElem_map, List.getElem_range, List.getElem_take,
      List.getElem_replicate, List.length_take, List.getD_eq_getElem?_getD]
    split
    · next hin => rw [List.getElem?_eq_getElem (by omega)]; rfl
    · next hout =>
      have hlt : n < count := by simpa [outBytes] using hcount
      rw [List.getElem?_eq_none (by omega)]
      rfl

section Reading

variable {s : State} {h : HostId} (hl : Listens s h) (count : Nat)
include hl

theorem readWindow_answered (hstate : (s.port h).state = .answered) :
    readWindow h count s = s.setPort h ((s.port h).readAnswer count) := by
  simp [readWindow, windowIgnored_of_listens hl, hstate]

theorem readWindow_working (hstate : (s.port h).state = .working) :
    readWindow h count s = s.setPort h ((s.port h).readShort .wait (shortFlags s h) count) := by
  simp [readWindow, windowIgnored_of_listens hl, hstate]

theorem readWindow_idle (hstate : (s.port h).state = .idle) :
    readWindow h count s = s.setPort h ((s.port h).readShort .empty (shortFlags s h) count) := by
  simp [readWindow, windowIgnored_of_listens hl, hstate]

end Reading

theorem exec_answerRead (h : HostId) (count : Nat) (s : State) :
    exec (.answerRead h count) s = .next (readWindow h count s) := rfl

/-- Settles O51: the port's state decides what it puts out. -/
theorem answersAreReadOutAndKeptUntilWhole : Obligations.AnswersAreReadOutAndKeptUntilWhole := by
  intro s h count hl hstate
  have hexec := exec_answerRead h count s
  rcases hstate with hanswered | hworking | hidle
  · rw [readWindow_answered hl count hanswered] at hexec
    obtain ⟨t, ht, hframe, hself, hothers⟩ := completes_setPort hexec
    refine ⟨t, ht, hframe, hothers, fun _ hwhole => ?_, fun _ hpart => ?_, fun hworking => ?_, fun hidle => ?_⟩
    · rw [hself, Port.readAnswer, if_pos hwhole, shiftOut_eq_outBytes]
    · rw [hself, Port.readAnswer, if_neg (Nat.not_le.mpr hpart), shiftOut_eq_outBytes]
    · cases hanswered.symm.trans hworking
    · cases hanswered.symm.trans hidle
  · rw [readWindow_working hl count hworking] at hexec
    obtain ⟨t, ht, hframe, hself, hothers⟩ := completes_setPort hexec
    refine ⟨t, ht, hframe, hothers, fun hanswered => ?_, fun hanswered => ?_, fun _ => ?_, fun hidle => ?_⟩
    · cases hanswered.symm.trans hworking
    · cases hanswered.symm.trans hworking
    · rw [hself, Port.readShort, shiftOut_eq_outBytes]
      rfl
    · cases hidle.symm.trans hworking
  · rw [readWindow_idle hl count hidle] at hexec
    obtain ⟨t, ht, hframe, hself, hothers⟩ := completes_setPort hexec
    refine ⟨t, ht, hframe, hothers, fun hanswered => ?_, fun hanswered => ?_, fun hworking => ?_, fun _ => ?_⟩
    · cases hanswered.symm.trans hidle
    · cases hanswered.symm.trans hidle
    · cases hworking.symm.trans hidle
    · rw [hself, Port.readShort, shiftOut_eq_outBytes]
      rfl

/-! ## EDIT_STAGE of what is no valid entry -/

/-- A record that is read for a target is that of the entry it gives. -/
theorem entry_of_parseRecord {t : Target} {record : List Byte} {e : StagedEntry} (he : parseRecord t record = some e) :
    e.target = t ∧ entryRecord e = record := by
  unfold parseRecord at he
  cases t with
  | source n =>
    dsimp only at he
    split at he
    · next c hc =>
      split_ifs at he
      cases he
      exact ⟨rfl, (sourceBlock_eq_configBytes c).symm.trans (sourceBlock_of_parseSourceBlock hc)⟩
    · cases he
  | lane k =>
    dsimp only at he
    split at he
    · next b =>
      split_ifs at he
      cases he
      exact ⟨rfl, congrArg (fun b => [b]) (byteOf_toNat b)⟩
    · cases he
  | line i =>
    dsimp only at he
    split at he
    · next hi lo =>
      split_ifs at he
      cases he
      exact ⟨rfl, wordOfNat_wordOf hi lo⟩
    · cases he

section Staging

variable {h : HostId} {kind number : Byte} {record : List Byte} {s : State}

theorem takeEditStage_noSession (hother : s.edit.holder ≠ some h) :
    takeEditStage h kind number record s = (s, .bare .noSession) := if_pos (isHolder_eq_false hother)

theorem takeEditStage_badValue (hheld : s.edit.holder = some h)
    (hbad : ¬ ∃ e : StagedEntry,
      StagedEntry.Valid e ∧ entryKind e = kind ∧ entryNumber e = number ∧ entryRecord e = record) :
    takeEditStage h kind number record s = (s, .bare .badValue) := by
  rw [takeEditStage, isHolder_eq_true hheld]
  cases ht : parseTarget kind number with
  | none => rfl
  | some t =>
    cases he : parseRecord t record with
    | none => simp [he]
    | some e =>
      obtain ⟨htarget, hrecord⟩ := entry_of_parseRecord he
      obtain ⟨hkind, hnumber⟩ := (target_eq_iff ht e).mp htarget
      exact absurd ⟨e, valid_of_parseRecord he, hkind, hnumber, hrecord⟩ hbad

end Staging

theorem exec_editStage {kind number : Byte} {record : List Byte} (hlength : StageLength (kind :: number :: record))
    (h : HostId) (s : State) :
    exec (.editStage h kind number record) s =
      .next (request h (record.length + 2) (fun x => answerRequest h (takeEditStage h kind number record x)) s) :=
  if_pos (stageLengthAllowed_iff.mpr hlength)

theorem windowBytes_editStage (h : HostId) (kind number : Byte) (record : List Byte) :
    windowBytes (.editStage h kind number record) = (record.length + 2) + 3 := rfl

/-- R129's table for a SOURCE record. -/
theorem validSource_iff (n : SourceId) (c : SourceConfig) :
    StagedEntry.Valid (.source n c) ↔
      (c.enabled = true → c.hostSet ≠ 0) ∧ c.leaseMs ≤ 60000 ∧
      (kindOf n ≠ .watch → c.line = 0 ∧ c.trigger = .rise) ∧
      (kindOf n ≠ .posted → c.posters = 0 ∧ c.echo = false) := by
  show validSource n c = true ↔ _
  simp only [validSource, Bool.and_eq_true, Bool.or_eq_true, Bool.not_eq_true', bne_iff_ne, ne_eq, beq_iff_eq,
    decide_eq_true_eq, and_assoc, ← Bool.not_eq_true, imp_iff_not_or, not_not]

/-- Settles O31: R129's steps on the bytes, R151's length check before them, and R129's table. -/
theorem editStageRefusesBadRecords : Obligations.EditStageRefusesBadRecords := by
  refine ⟨fun s h kind number record hr hlength => ⟨fun hother => ?_, fun hheld hbad => ?_⟩,
    fun s h kind number record hr hlength => ?_, validSource_iff, fun k limit => ?_, fun i us => ?_⟩
  · exact onlyAnswers_of_take hr (windowBytes_editStage h kind number record) (exec_editStage hlength h s)
      (takeEditStage_noSession hother)
  · exact onlyAnswers_of_take hr (windowBytes_editStage h kind number record) (exec_editStage hlength h s)
      (takeEditStage_badValue hheld hbad)
  · exact exec_rejects hr
      ((windowBytes_editStage h kind number record).trans
        (Laws.FrameFits.length_requestFrame 0x61 (kind :: number :: record)).symm)
      (if_neg (mt stageLengthAllowed_iff.mp hlength))
  · show validCredit limit = true ↔ _
    simp [validCredit]
  · show validSettle us = true ↔ _
    simp [validSettle]

end Sys2Proof.Proofs
end

section
/-! PROOFS. READ_SOURCE (O24), and CLAIM_TAKEN of a claim that finds work: one ticket issued (O8). -/

namespace Sys2Proof.Proofs

open Sys2Proof.Machine Sys2Proof.Stated Sys2Proof.Safety

/-! ## READ_SOURCE -/

theorem exec_readSource (h : HostId) (b : Byte) (s : State) :
    exec (.readSource h b) s = .next (request h 1 (fun x => answerRequest h (takeReadSource b x)) s) := rfl

theorem windowBytes_readSource (h : HostId) (b : Byte) : windowBytes (.readSource h b) = 1 + 3 := rfl

theorem takeReadSource_badValue {b : Byte} (s : State) (hb : 63 < b.toNat) :
    takeReadSource b s = (s, .bare .badValue) := by
  simp only [takeReadSource, sourceOfByte_eq_none hb]

theorem takeReadSource_named {b : Byte} {i : SourceId} (s : State) (hb : b.toNat = i.val) :
    takeReadSource b s = (s, .okWith (sourceData i (s.source i) (s.sourceTicket i))) := by
  simp only [takeReadSource, sourceOfByte_eq_some hb]

theorem kindCode_eq (i : SourceId) : (kindOf i).code = if i.val < 48 then 0 else if i.val < 63 then 1 else 2 := by
  unfold kindOf
  split_ifs <;> rfl

/-- R24: what every READ_SOURCE answer begins with. -/
def recordFront (i : SourceId) (r : Source) : List Byte :=
  BitVec.ofNat 8 i.val :: (if i.val < 48 then 0 else if i.val < 63 then 1 else 2) ::
    (match r.state with | .off => 0 | .armed => 1 | .faulted => 2) :: configBytes r.config

theorem sourceData_eq (i : SourceId) (r : Source) (live : Option Ticket) :
    sourceData i r live = recordFront i r ++ runtimeBytes i r live := by
  have hstate : r.state.code = match r.state with | .off => (0 : Byte) | .armed => 1 | .faulted => 2 := by
    cases r.state <;> rfl
  rw [sourceData, sourceBlock_eq_configBytes, kindCode_eq, hstate]
  rfl

section Runtime

variable {i : SourceId} {r : Source} (live : Option Ticket)

/-- R24: the markers and the attempt counts of an EACH-mode source, host by host. -/
def perHostBytes (r : Source) : List Byte :=
  (allHosts.map fun x => (match r.markerOf x with | .clear => 0 | .owed => 1 | .held => 2 | .heldOwed => 3 : Byte)) ++
    allHosts.map fun x => BitVec.ofNat 8 (r.attemptsOf x)

theorem markerCode_eq (m : Marker) :
    m.code = match m with | .clear => (0 : Byte) | .owed => 1 | .held => 2 | .heldOwed => 3 := by
  cases m <;> rfl

theorem runtimeBytes_oneCounted (hmode : r.config.mode = .one) (hkind : kindOf i ≠ .posted) :
    runtimeBytes i r live =
      [BitVec.ofNat 8 r.pendingCount, if r.overflowMark then 1 else 0, BitVec.ofNat 8 r.attempts] ++
        live.elim [] fun u => wordBytes u.number := by
  simp only [runtimeBytes, hmode, hkind, if_false, byteOf, boolByte]
  cases live <;> rfl

theorem runtimeBytes_onePosted (hmode : r.config.mode = .one) (hkind : kindOf i = .posted) :
    runtimeBytes i r live =
      [BitVec.ofNat 8 r.attempts, BitVec.ofNat 8 r.argQueue.length] ++ (r.argQueue.map wordBytes).flatten ++
        live.elim [] fun u => wordBytes u.number := by
  simp only [runtimeBytes, hmode, hkind, if_true, byteOf, List.flatMap_def]
  cases live <;> rfl

theorem runtimeBytes_each (hmode : r.config.mode = .each) (hkind : kindOf i ≠ .posted) :
    runtimeBytes i r live = perHostBytes r := by
  simp only [runtimeBytes, hmode, hkind, if_false, perHostBytes, markerCode_eq, byteOf]

theorem runtimeBytes_eachPosted (hmode : r.config.mode = .each) (hkind : kindOf i = .posted) :
    runtimeBytes i r live = wordBytes r.mailbox ++ perHostBytes r := by
  simp only [runtimeBytes, hmode, hkind, if_true, perHostBytes, markerCode_eq, byteOf, List.append_assoc]

end Runtime

/-- Settles O24: the front of the record, and its runtime bytes by mode and kind. -/
theorem readSourceShowsTheRecord : Obligations.ReadSourceShowsTheRecord := by
  intro s h b hr
  refine ⟨fun hb => ?_, fun i hb => ?_⟩
  · exact onlyAnswers_of_take hr (windowBytes_readSource h b) (exec_readSource h b s) (takeReadSource_badValue _ hb)
  · intro r front perHost live
    have answers {rest : List Byte} (hrest : runtimeBytes i r (s.sourceTicket i) = rest) :
        OnlyAnswers (.readSource h b) h (.okWith (front ++ rest)) s := by
      refine onlyAnswers_of_take hr (windowBytes_readSource h b) (exec_readSource h b s)
        ((takeReadSource_named _ hb).trans ?_)
      rw [← hrest]
      exact congrArg (fun data => (passedOn (.readSource h b) h s, Answer.okWith data)) (sourceData_eq i r _)
    refine ⟨fun hmode hkind => ?_, fun hmode hkind => ?_, fun hmode hkind => ?_, fun hmode hkind => ?_⟩
    · rw [List.append_assoc]
      exact answers (runtimeBytes_oneCounted _ hmode hkind)
    · rw [List.append_assoc, List.append_assoc, ← List.append_assoc [_, _]]
      exact answers (runtimeBytes_onePosted _ hmode hkind)
    · exact answers (runtimeBytes_each _ hmode hkind)
    · rw [List.append_assoc]
      exact answers (runtimeBytes_eachPosted _ hmode hkind)

/-! ## The ticket that an issue gives -/

theorem ticketNumber_eq (q : BitVec 11) (k : SlotId) :
    ticketNumber q k = BitVec.ofNat 16 (q.toNat * 32 + k.val) := by
  apply BitVec.eq_of_toNat_eq
  rw [ticketNumber_toNat, BitVec.toNat_ofNat, Nat.mod_eq_of_lt]
  have := k.isLt
  have := q.isLt
  omega

theorem coveredAtIssue_eq (i : SourceId) (r : Source) :
    coveredAtIssue i r = if r.config.mode = .one ∧ kindOf i ≠ .posted then r.pendingCount else 1 := by
  unfold coveredAtIssue
  cases r.config.mode <;> by_cases hkind : kindOf i = .posted <;> simp [hkind]

theorem argumentAtIssue_eq (i : SourceId) (r : Source) :
    argumentAtIssue i r =
      if kindOf i = .posted then (if r.config.mode = .one then r.argQueue.head? else some r.mailbox) else none := by
  unfold argumentAtIssue
  cases r.config.mode <;> rfl

theorem attemptAtIssue_eq (h : HostId) (r : Source) :
    attemptAtIssue h r = (if r.config.mode = .one then r.attempts else r.attemptsOf h) + 1 := by
  unfold attemptAtIssue
  cases r.config.mode <;> rfl

theorem deadlineAtIssue_eq (now : Millis) (lease : Nat) :
    (if lease = 0 then none else some (msAfter now lease)) =
      if 0 < lease then some (now + BitVec.ofNat 32 lease) else none := by
  cases lease <;> simp [msAfter]

/-- R68 to R75: the ticket at issue, by the slot's advanced counter. -/
theorem ticketAtIssue_eq_issued (s : State) (h : HostId) (i : SourceId) (k : SlotId) :
    ticketAtIssue s h i k = issued s h i k (advanceSequence (s.slot k).sequence) := by
  simp only [ticketAtIssue, issued, ticketNumber_eq, coveredAtIssue_eq, argumentAtIssue_eq, attemptAtIssue_eq,
    deadlineAtIssue_eq]

theorem sourceAfterIssue_eq_taken (h : HostId) (i : SourceId) (r : Source) : sourceAfterIssue h i r = taken h i r := by
  unfold sourceAfterIssue taken
  rw [List.drop_one]
  rfl

theorem claimData_eq_claimBytes (t : Ticket) : claimData t = claimBytes t := by
  unfold claimData claimBytes
  cases t.argument <;> rfl

/-! ## The issue -/

section Issue

variable (h : HostId) (i : SourceId) (k : SlotId) (s : State)

theorem issue_slot_self :
    (issue h i k s).slot k =
      { sequence := advanceSequence (s.slot k).sequence
        ticket := some (issued s h i k (advanceSequence (s.slot k).sequence)) } := by
  rw [issue, recomputeAtn_slot, State.setSource_slot, State.setSlot_slot_self, ticketAtIssue_eq_issued]

theorem issue_slot_ne {j : SlotId} (hj : j ≠ k) : (issue h i k s).slot j = s.slot j := by
  rw [issue, recomputeAtn_slot, State.setSource_slot, State.setSlot_slot_ne _ _ _ _ hj.symm]

theorem issue_source_self : (issue h i k s).source i = taken h i (s.source i) := by
  rw [issue, recomputeAtn_source, State.setSource_source_self, sourceAfterIssue_eq_taken]

theorem issue_source_ne {j : SourceId} (hj : j ≠ i) : (issue h i k s).source j = s.source j := by
  rw [issue, recomputeAtn_source, setSource_other _ _ hj.symm]
  rfl

end Issue

theorem exists_lowestFree {s : State} (hroom : s.liveTotal < 32) : ∃ k, s.lowestFree = some k :=
  Option.ne_none_iff_exists'.mp fun hnone => by
    obtain ⟨k, hfree⟩ := (liveTotal_lt_iff s).mp hroom
    exact lowestFree_eq_none.mp hnone k hfree

/-- R55, step 4: the claim that finds source `i` is issued a ticket into the lowest free slot. -/
theorem serveClaim_issues {s : State} {h : HostId} {c : LaneChoice} {i : SourceId} {k : SlotId} (hbest : Best s h c i)
    (hk : s.lowestFree = some k) :
    serveClaim h c s =
      (issue h i k s, .okWith (claimBytes (issued s h i k (advanceSequence (s.slot k).sequence)))) := by
  simp only [serveClaim, select_eq_some_iff.mpr hbest, hk, claimData_eq_claimBytes, ticketAtIssue_eq_issued]

/-- Settles O8: the arbiter serves the next claim, and the issue is the only change besides its answer. -/
theorem claimTakenIssuesATicket : Obligations.ClaimTakenIssuesATicket := by
  intro s h b c i hnext hattached hb hadmitted hroom hbest
  obtain ⟨k, hk⟩ := exists_lowestFree hroom
  obtain ⟨hfree, hlowest⟩ := lowestFree_eq_some hk
  have htake : takeClaim h b (claimOff h s) =
      (issue h i k (claimOff h s), .okWith (claimBytes (issued s h i k (advanceSequence (s.slot k).sequence)))) :=
    (takeClaim_serves (s := claimOff h s) hattached hb hadmitted hroom).trans
      (serveClaim_issues (s := claimOff h s) hbest hk)
  obtain ⟨t, ht, hframe, hrestarted, hanswers⟩ := exec_claimTaken_answers hnext htake (issue_ports ..)
    (issue_edit ..) (issue_now ..)
  have hslot (j : SlotId) : t.slot j = (issue h i k (claimOff h s)).slot j := by rw [hframe]; rfl
  have hsource (j : SourceId) : t.source j = (issue h i k (claimOff h s)).source j := by rw [hframe]; rfl
  have hwaiting (x : HostId) : t.waitingClaim x = (claimOff h s).waitingClaim x := by
    rw [hframe, issue_frame]
    rfl
  have hlevel (x : HostId) : atnLevel t x = atnLevel (issue h i k (claimOff h s)) x := by rw [hframe]; rfl
  refine ⟨t, ht, ?_, ⟨k, _, hfree, hlowest, rfl, ?_, fun j hj => ?_, hanswers⟩, ?_, fun j hj => ?_, ?_, fun x hx => ?_,
    ?_, fun x => ?_, hrestarted⟩
  · rw [hframe, issue_frame]
    rfl
  · rw [hslot, issue_slot_self]
    rfl
  · rw [hslot, issue_slot_ne _ _ _ _ hj]
    rfl
  · rw [hsource, issue_source_self]
    rfl
  · rw [hsource, issue_source_ne _ _ _ _ hj]
    rfl
  · rw [hwaiting, claimOff_waitingClaim_self]
  · rw [hwaiting, claimOff_waitingClaim_ne s hx]
  · rw [hframe, issue_frame]
    rfl
  · rw [hlevel, hframe]
    exact recomputeAtn_atnOf _ x

end Sys2Proof.Proofs
end

section
/-! PROOFS. COMMIT_COMPLETION without a conflict (R136, R137): what the records written and the level checks after them
leave of each source, lane and line (O38). -/

namespace Sys2Proof.Proofs

open Sys2Proof.Machine Sys2Proof.Stated Sys2Proof.Safety

/-! ## Level checks of several sources -/

/-- The level check reads the accepted levels and the attached hosts. -/
theorem checked_congr {s t : State} (hlevel : ∀ l, (t.line l).acceptedLevel = (s.line l).acceptedLevel)
    (hattached : ∀ x, t.attached x = s.attached x) (live : Bool) (i : SourceId) (r : Source) :
    checked t live i r = checked s live i r := by
  have hholds : levelHolds t r.config = levelHolds s r.config := by simp only [levelHolds, hlevel]
  simp only [checked, hholds, hattached]

/-- The level checks of distinct sources do not reach one another. -/
theorem foldl_levelCheck_source {l : List SourceId} (hl : l.Nodup) (s : State) (i : SourceId) :
    (l.foldl (fun x j => levelCheck j x) s).source i =
      if i ∈ l then checked s (s.liveTickets.any fun u => u.source == i) i (s.source i) else s.source i := by
  induction l generalizing s with
  | nil => rfl
  | cons j rest ih =>
    obtain ⟨hj, hrest⟩ := List.nodup_cons.mp hl
    rw [List.foldl_cons, ih hrest]
    by_cases hij : i = j
    · subst hij
      rw [if_neg hj, if_pos List.mem_cons_self, levelCheck_source_self]
    · simp only [List.mem_cons, hij, false_or, levelCheck_other s (Ne.symm hij), levelCheck_liveTickets]
      rw [checked_congr (s := s) (by simp) (by simp)]

/-! ## The records written -/

/-- What a target's record is after every entry is written: as it was where no entry names the target, else as the one
entry that names it leaves it. -/
theorem foldl_applyEntry_read {α : Type} (read : State → α) {t : Target}
    (hother : ∀ x e, StagedEntry.target e ≠ t → read (applyEntry x e) = read x) {l : List StagedEntry} (s : State) :
    (t ∉ l.map StagedEntry.target → read (l.foldl applyEntry s) = read s) ∧
      ((l.map StagedEntry.target).Nodup → ∀ e ∈ l, e.target = t →
        ∃ x, read x = read s ∧ read (l.foldl applyEntry s) = read (applyEntry x e)) := by
  induction l generalizing s with
  | nil => exact ⟨fun _ => rfl, fun _ e he => absurd he List.not_mem_nil⟩
  | cons a rest ih =>
    obtain ⟨hnone, hone⟩ := ih (applyEntry s a)
    rw [List.foldl_cons, List.map_cons]
    constructor
    · intro hnot
      rw [List.mem_cons, not_or] at hnot
      obtain ⟨ha, hrest⟩ := hnot
      rw [hnone hrest, hother s a (Ne.symm ha)]
    · rintro hnodup e he rfl
      obtain ⟨ha, hrest⟩ := List.nodup_cons.mp hnodup
      rcases List.mem_cons.mp he with rfl | he
      · exact ⟨s, rfl, hnone ha⟩
      · have hne : a.target ≠ e.target := fun heq => ha (heq ▸ List.mem_map_of_mem he)
        obtain ⟨x, hx, hread⟩ := hone hrest e he rfl
        exact ⟨x, hx.trans (hother s a hne), hread⟩

theorem applyEntry_creditLimit_other {k : LaneId} (s : State) (e : StagedEntry) (he : e.target ≠ .lane k) :
    (applyEntry s e).creditLimit k = s.creditLimit k := by
  cases e with
  | lane j limit => exact State.setCreditLimit_creditLimit_ne _ _ _ _ fun heq => he (heq ▸ rfl)
  | source i c => rfl
  | line i us => rfl

theorem applyEntry_line_other {l : LineId} (s : State) (e : StagedEntry) (he : e.target ≠ .line l) :
    (applyEntry s e).line l = s.line l := by
  cases e with
  | line j us => exact State.setLine_line_ne _ _ _ _ fun heq => he (heq ▸ rfl)
  | source i c => rfl
  | lane k limit => rfl

theorem foldl_applyEntry_acceptedLevel (list : List StagedEntry) (s : State) (l : LineId) :
    ((list.foldl applyEntry s).line l).acceptedLevel = (s.line l).acceptedLevel := by
  induction list generalizing s with
  | nil => rfl
  | cons e rest ih =>
    rw [List.foldl_cons, ih]
    cases e with
    | line j us =>
      by_cases hj : j = l
      · subst hj
        rw [applyEntry, State.setLine_line_self]
      · exact congrArg Line.acceptedLevel (State.setLine_line_ne _ _ _ _ hj)
    | source i c => rfl
    | lane k limit => rfl

/-! ## What R137 makes of one source -/

theorem clearsRuntime_iff {i : SourceId} {r : Source} {c : SourceConfig} :
    clearsRuntime i r c = true ↔
      c.enabled = true ∧ (r.state ≠ .armed ∨ c.mode ≠ r.config.mode ∨ toLevel i r.config c = true) := by
  simp only [clearsRuntime, changesMode, edgeToLevel_eq_toLevel, Bool.and_eq_true, Bool.or_eq_true, bne_iff_ne, ne_eq,
    or_assoc]

theorem dropOwed_eq_unowed (m : Marker) : m.dropOwed = unowed m := by cases m <;> rfl

/-- R9: the mailbox of a source that changes its mode is 0. -/
theorem mailbox_eq (r : Source) (c : SourceConfig) :
    (if changesMode r c then (0 : Word) else r.mailbox) = if c.mode = r.config.mode then r.mailbox else 0 := by
  by_cases hmode : c.mode = r.config.mode <;> simp [changesMode, hmode]

/-- R9: what a same-mode commit keeps of an ARMED source. -/
theorem committed_of_keeps {s : State} {i : SourceId} {c : SourceConfig} (henabled : c.enabled = true)
    (hkeeps : ¬ clearsRuntime i (s.source i) c = true) : committed s i c = commitSource s i c (s.source i) := by
  have hsame : ¬ ((s.source i).state ≠ .armed ∨ c.mode ≠ (s.source i).config.mode ∨
      toLevel i (s.source i).config c = true) := fun hwhy => hkeeps (clearsRuntime_iff.mpr ⟨henabled, hwhy⟩)
  have hmode : c.mode = (s.source i).config.mode := by
    rw [not_or, not_or, not_not, not_not] at hsame
    obtain ⟨-, hmode, -⟩ := hsame
    exact hmode
  rw [committed, commitSource, if_neg hkeeps, if_pos henabled, if_pos henabled, if_neg hsame, mailbox_eq, if_pos hmode]
  simp only [keepRuntime, Source.mapMarkers, Source.clearAttempts, dropOwed_eq_unowed]
  rfl

/-- R137's table is the record that the commit writes, with its level check where the runtime part is cleared. -/
theorem committed_eq (s : State) (i : SourceId) (c : SourceConfig) :
    committed s i c =
      if clearsRuntime i (s.source i) c then
        checked s (s.liveTickets.any fun u => u.source == i) i (commitSource s i c (s.source i))
      else commitSource s i c (s.source i) := by
  by_cases hclears : clearsRuntime i (s.source i) c = true
  · obtain ⟨henabled, hwhy⟩ := clearsRuntime_iff.mp hclears
    rw [if_pos hclears, committed, commitSource, if_pos hclears, if_pos henabled, if_pos hwhy, clearRuntime, mailbox_eq]
    rfl
  rw [if_neg hclears]
  by_cases henabled : c.enabled = true
  · exact committed_of_keeps henabled hclears
  · rw [committed, commitSource, if_neg hclears, if_neg henabled, if_neg henabled, mailbox_eq]
    split
    · rfl
    · simp only [disableRuntime, dropWaiting, Source.mapMarkers, Source.clearAttempts, dropOwed_eq_unowed, emptied]
      rfl

/-! ## The sources to be checked -/

theorem checkAfter_eq_some {s : State} {e : StagedEntry} {i : SourceId} (he : checkAfter s e = some i) :
    ∃ c, e = .source i c ∧ clearsRuntime i (s.source i) (configFor i c) = true := by
  cases e with
  | source j c =>
    simp only [checkAfter] at he
    split at he
    · next hclears =>
      cases he
      exact ⟨c, rfl, hclears⟩
    · cases he
  | lane k limit => cases he
  | line l us => cases he

theorem checks_sublist (s : State) (l : List StagedEntry) :
    ((l.filterMap (checkAfter s)).map Target.source).Sublist (l.map StagedEntry.target) := by
  induction l with
  | nil => exact List.Sublist.refl _
  | cons e rest ih =>
    cases he : checkAfter s e with
    | none =>
      rw [List.filterMap_cons_none he]
      exact ih.cons _
    | some i =>
      obtain ⟨c, rfl, -⟩ := checkAfter_eq_some he
      rw [List.filterMap_cons_some he]
      exact ih.cons_cons _

/-- R136: distinct targets give distinct sources to check. -/
theorem nodup_checks {l : List StagedEntry} (hl : (l.map StagedEntry.target).Nodup) (s : State) :
    (l.filterMap (checkAfter s)).Nodup := (hl.sublist (checks_sublist s l)).of_map

theorem mem_checks {l : List StagedEntry} (hl : (l.map StagedEntry.target).Nodup) {s : State} {i : SourceId}
    {c : SourceConfig} (hmem : .source i c ∈ l) :
    i ∈ l.filterMap (checkAfter s) ↔ clearsRuntime i (s.source i) (configFor i c) = true := by
  rw [List.mem_filterMap]
  constructor
  · rintro ⟨e, he, hcheck⟩
    obtain ⟨c', rfl, hclears⟩ := checkAfter_eq_some hcheck
    cases List.inj_on_of_nodup_map hl he hmem rfl
    exact hclears
  · exact fun hclears => ⟨_, hmem, if_pos hclears⟩

theorem not_mem_checks {l : List StagedEntry} {i : SourceId} (hnone : ∀ c, StagedEntry.source i c ∉ l) (s : State) :
    i ∉ l.filterMap (checkAfter s) := by
  rw [List.mem_filterMap]
  rintro ⟨e, he, hcheck⟩
  obtain ⟨c, rfl, -⟩ := checkAfter_eq_some hcheck
  exact hnone c he

/-! ## Everything written -/

section Applied

variable {l : List StagedEntry} (hl : (l.map StagedEntry.target).Nodup) (s : State)

theorem target_ne_source {i : SourceId} (hnone : ∀ c, StagedEntry.source i c ∉ l) :
    Target.source i ∉ l.map StagedEntry.target := by
  rw [List.mem_map]
  rintro ⟨e, he, htarget⟩
  cases e with
  | source j c => cases htarget; exact hnone c he
  | lane k limit => cases htarget
  | line j us => cases htarget

include hl

theorem applyAll_source (i : SourceId) :
    (applyAll l s).source i =
      if i ∈ l.filterMap (checkAfter s) then
        checked s (s.liveTickets.any fun u => u.source == i) i ((l.foldl applyEntry s).source i)
      else (l.foldl applyEntry s).source i := by
  have hattached (x : HostId) : (l.foldl applyEntry s).attached x = s.attached x :=
    congrArg (fun v => v[x].attached) (foldl_applyEntry_hosts l s)
  rw [applyAll, foldl_levelCheck_source (nodup_checks hl s),
    checked_congr (foldl_applyEntry_acceptedLevel l s) hattached, liveTickets_of_slots_eq (foldl_applyEntry_slots l s)]

/-- R136, R137: a source that a valid entry names. -/
theorem applyAll_source_mem {i : SourceId} {c : SourceConfig} (hvalid : StagedEntry.Valid (.source i c))
    (hmem : .source i c ∈ l) : (applyAll l s).source i = committed s i c := by
  rw [applyAll_source hl, committed_eq, foldl_applyEntry_source_mem hl hmem, configFor_of_valid hvalid]
  simp only [mem_checks hl hmem, configFor_of_valid hvalid]

theorem applyAll_source_other {i : SourceId} (hnone : ∀ c, StagedEntry.source i c ∉ l) :
    (applyAll l s).source i = s.source i := by
  rw [applyAll_source hl, if_neg (not_mem_checks hnone s), foldl_applyEntry_source_other (target_ne_source hnone)]

theorem applyAll_creditLimit_mem {k : LaneId} {limit : Nat} (hmem : .lane k limit ∈ l) :
    (applyAll l s).creditLimit k = limit := by
  obtain ⟨-, hone⟩ := foldl_applyEntry_read (t := .lane k) (fun x => x.creditLimit k) applyEntry_creditLimit_other
    (l := l) s
  obtain ⟨x, -, hread⟩ := hone hl _ hmem rfl
  rw [applyAll_frame]
  exact hread.trans (State.setCreditLimit_creditLimit_self ..)

theorem applyAll_line_mem {i : LineId} {us : Nat} (hmem : .line i us ∈ l) :
    (applyAll l s).line i = { s.line i with settleUs := us } := by
  obtain ⟨-, hone⟩ := foldl_applyEntry_read (t := .line i) (fun x => x.line i) applyEntry_line_other (l := l) s
  obtain ⟨x, hx, hread⟩ := hone hl _ hmem rfl
  rw [applyAll_frame]
  refine hread.trans ((State.setLine_line_self ..).trans ?_)
  rw [show x.line i = s.line i from hx]

omit hl

theorem applyAll_creditLimit_other {k : LaneId} (hnone : ∀ limit, StagedEntry.lane k limit ∉ l) :
    (applyAll l s).creditLimit k = s.creditLimit k := by
  rw [applyAll_frame]
  refine (foldl_applyEntry_read (t := .lane k) (fun x => x.creditLimit k) applyEntry_creditLimit_other s).1 ?_
  rw [List.mem_map]
  rintro ⟨e, he, htarget⟩
  cases e with
  | lane j limit => cases htarget; exact hnone limit he
  | source j c => cases htarget
  | line j us => cases htarget

theorem applyAll_line_other {i : LineId} (hnone : ∀ us, StagedEntry.line i us ∉ l) :
    (applyAll l s).line i = s.line i := by
  rw [applyAll_frame]
  refine (foldl_applyEntry_read (t := .line i) (fun x => x.line i) applyEntry_line_other s).1 ?_
  rw [List.mem_map]
  rintro ⟨e, he, htarget⟩
  cases e with
  | line j us => cases htarget; exact hnone us he
  | source j c => cases htarget
  | lane k limit => cases htarget

end Applied

/-! ## COMMIT_COMPLETION -/

theorem firstConflict_of_no_conflict {s : State} {l : List StagedEntry} (hfree : ∀ e ∈ l, conflicts s e = false) :
    firstConflict s l = none := by
  induction l with
  | nil => rfl
  | cons e rest ih =>
    obtain ⟨he, hrest⟩ := List.forall_mem_cons.mp hfree
    rw [firstConflict, isConflict_eq_conflicts, he, ih hrest]
    rfl

theorem exec_commitCompletion_of_no_conflict {s : State} {h : HostId} (hheld : s.edit.holder = some h)
    (hflight : s.edit.commitInFlight = true) (hfree : ∀ e ∈ s.edit.staged, conflicts s e = false) :
    exec .commitCompletion s = .next (completeApply h s) := by
  show execCommitCompletion s = _
  simp only [execCommitCompletion, hheld, hflight, firstConflict_of_no_conflict hfree, if_true]

/-- What the completion leaves of the tables that the entries write. -/
theorem completeApply_tables (h : HostId) (s : State) :
    (∀ i, (completeApply h s).source i = (applyAll s.edit.staged s).source i) ∧
      (∀ k, (completeApply h s).creditLimit k = (applyAll s.edit.staged s).creditLimit k) ∧
      ∀ l, (completeApply h s).line l = (applyAll s.edit.staged s).line l := by
  simp [completeApply]

theorem completeApply_frame (h : HostId) (s : State) :
    completeApply h s =
      { s with
        sources := (completeApply h s).sources, lines := (completeApply h s).lines, lanes := (completeApply h s).lanes
        hosts := (completeApply h s).hosts, atn := (completeApply h s).atn, edit := (completeApply h s).edit
        ports := (completeApply h s).ports } := by
  rw [completeApply, formAnswer_frame, recomputeAtn_frame, endSession_frame, Machine.applyAll_frame]

/-- Settles O38: the entries name distinct targets, so each record is what its one entry makes of it. -/
theorem commitAppliesEveryEntry : Obligations.CommitAppliesEveryEntry := by
  intro s h hedit hheld hflight hfree
  have hvalid := staged_valid hedit
  obtain ⟨-, -, -, -, hdistinct, -, -, -⟩ := hedit
  obtain ⟨hsource, hlimit, hline⟩ := completeApply_tables h s
  refine ⟨_, exec_commitCompletion_of_no_conflict hheld hflight hfree, completeApply_frame h s, fun i c hmem => ?_,
    fun i hnone => ?_, fun k limit hmem => ?_, fun k hnone => ?_, fun l us hmem => ?_, fun l hnone => ?_, ?_, ?_,
    fun x hx => ?_, fun x => ?_, ?_⟩
  · rw [hsource, applyAll_source_mem hdistinct s (hvalid _ hmem) hmem]
  · rw [hsource, applyAll_source_other hdistinct s hnone]
  · rw [hlimit, applyAll_creditLimit_mem hdistinct s hmem]
  · rw [hlimit, applyAll_creditLimit_other s hnone]
  · rw [hline, applyAll_line_mem hdistinct s hmem]
  · rw [hline, applyAll_line_other s hnone]
  · rw [completeApply, formAnswer_edit, recomputeAtn_edit]
    rfl
  · rw [completeApply, formAnswer_host, recomputeAtn_host, endSession, setEditState_host_self, State.setEdit_host,
      applyAll_host]
  · rw [completeApply, formAnswer_host, recomputeAtn_host, endSession, setEditState_host_ne _ _ hx, State.setEdit_host,
      applyAll_host]
  · rw [completeApply, formAnswer_atnOf]
    exact atnShown_recomputeAtn _ x
  · exact answersWaiting_formAnswer h _ (by simp)

end Sys2Proof.Proofs
end

section
/-! PROOFS. An accepted edge (R30 to R32, R11 to R16): what the report makes of each watch source, which of them lose
the occurrence, and the store of their OVERFLOW records (O47). -/

namespace Sys2Proof.Proofs

open Sys2Proof.Machine Sys2Proof.Stated Sys2Proof.Safety

/-! ## One source and the edge -/

theorem edgeOccurrence_source_self (i : SourceId) (s : State) :
    (edgeOccurrence i s).1.source i =
      match (s.source i).config.mode with
      | .one => counted (s.coveredBy i) (s.source i)
      | .each => markedBy s (fun _ => true) (s.source i) := by
  cases hmode : (s.source i).config.mode with
  | one => simp only [edgeOccurrence, hmode, State.setSource_source_self, countOccurrence_fst_eq_counted]
  | each => simp only [edgeOccurrence, hmode, State.setSource_source_self, markHosts_eq_markedBy]

theorem countOccurrence_snd (covered : Nat) (r : Source) :
    (countOccurrence covered r).2 = (!decide (r.pendingCount + covered < 15) && !r.overflowMark) := by
  rcases countOccurrence_cases covered r with ⟨hroom, heq⟩ | ⟨hfull, hmark, heq⟩ | ⟨hfull, hmark, heq⟩
  · simp [heq, hroom]
  · simp [heq, hmark]
  · simp [heq, hfull, hmark]

theorem edgeOccurrence_lost (i : SourceId) (s : State) :
    (edgeOccurrence i s).2 =
      ((s.source i).config.mode == .one && !decide ((s.source i).pendingCount + s.coveredBy i < 15) &&
        !(s.source i).overflowMark) := by
  cases hmode : (s.source i).config.mode with
  | one => simp only [edgeOccurrence, hmode, countOccurrence_snd, beq_self_eq_true, Bool.true_and]
  | each =>
    simp only [edgeOccurrence, hmode]
    rfl

section Reported

variable {l : LineId} {i : SourceId} {s : State} (b : Bool) (hkind : kindOf i = .watch)
  (hline : (s.source i).config.line = l)
include hkind hline

/-- R11: a watch source of the line takes the edge by its state and trigger. -/
theorem reactToEdge_source_self : (reactToEdge b i s).1.source i = edgeTaken s s l b i := by
  by_cases harmed : (s.source i).state = .armed
  · simp only [reactToEdge, edgeTaken, harmed, hkind, hline, and_self, if_true]
    cases (s.source i).config.trigger <;> cases b <;>
      simp only [edgeOccurrence_source_self, levelCheck_source_self, if_true, Bool.false_eq_true, if_false] <;> rfl
  · simp only [reactToEdge, edgeTaken, harmed, and_false, if_false]

/-- R13: the source whose record is to be stored. -/
theorem reactToEdge_lost : (reactToEdge b i s).2 = overflows s l b i := by
  by_cases harmed : (s.source i).state = .armed
  · simp only [reactToEdge, overflows, harmed, hkind, hline, beq_self_eq_true, Bool.true_and, if_true]
    cases (s.source i).config.trigger <;> cases b <;> simp [edgeOccurrence_lost, Bool.and_assoc]
  · simp [reactToEdge, overflows, harmed]

end Reported

/-! ## What the taking of an edge reads -/

section Reads

variable {s t : State} {i : SourceId} (hsource : t.source i = s.source i) (htickets : t.liveTickets = s.liveTickets)
include hsource htickets

theorem overflows_congr (l : LineId) (b : Bool) : overflows t l b i = overflows s l b i := by
  have hcovered : t.coveredBy i = s.coveredBy i := by simp only [State.coveredBy, State.sourceTicket, htickets]
  simp only [overflows, hsource, hcovered]

theorem edgeTaken_congr (hattached : ∀ x, t.attached x = s.attached x) {u v : State}
    (hlevel : ∀ l, (v.line l).acceptedLevel = (u.line l).acceptedLevel) (hv : ∀ x, v.attached x = u.attached x)
    (l : LineId) (b : Bool) : edgeTaken t v l b i = edgeTaken s u l b i := by
  have hcovered : t.coveredBy i = s.coveredBy i := by simp only [State.coveredBy, State.sourceTicket, htickets]
  simp only [edgeTaken, hsource, hcovered, htickets, markedBy, hattached,
    checked_congr hlevel hv]

end Reads

/-! ## The report to every source of the line -/

theorem reportTo_eq {l : LineId} {b : Bool} {list : List SourceId} (hlist : list.Nodup) {s : State}
    (hwatch : ∀ i ∈ list, kindOf i = .watch ∧ (s.source i).config.line = l) :
    (∀ i ∈ list, (reportTo b list s).1.source i = edgeTaken s s l b i) ∧
      (reportTo b list s).2 = list.filter (overflows s l b) := by
  induction list generalizing s with
  | nil => exact ⟨fun i hi => absurd hi List.not_mem_nil, rfl⟩
  | cons j rest ih =>
    obtain ⟨hj, hrest⟩ := List.nodup_cons.mp hlist
    obtain ⟨⟨hkind, hline⟩, hwatchRest⟩ := List.forall_mem_cons.mp hwatch
    have hother {i : SourceId} (hi : i ∈ rest) : (reactToEdge b j s).1.source i = s.source i :=
      reactToEdge_other b s fun heq => hj (heq ▸ hi)
    obtain ⟨hsources, hlost⟩ := ih hrest (s := (reactToEdge b j s).1) fun i hi => by
      rw [hother hi]
      exact hwatchRest i hi
    constructor
    · intro i hi
      rcases List.mem_cons.mp hi with rfl | hi
      · rw [reportTo, reportTo_other _ _ _ hj, reactToEdge_source_self b hkind hline]
      · rw [reportTo, hsources i hi]
        exact edgeTaken_congr (hother hi) (by simp) (by simp) (by simp) (by simp) l b
    · have hagree : rest.filter (overflows (reactToEdge b j s).1 l b) = rest.filter (overflows s l b) :=
        List.filter_congr fun i hi => overflows_congr (hother hi) (by simp) l b
      rw [reportTo, List.filter_cons, hlost, hagree, reactToEdge_lost b hkind hline]

/-! ## The OVERFLOW records -/

/-- R142, R20: one store and one notice for each listed source. -/
theorem storeOverflows_eq (list : List SourceId) (s : State) :
    (storeOverflows list s).faults = list.foldl (fun q i => stored q s.now (.overflow i)) s.faults ∧
      (storeOverflows list s).source 63 = Nat.iterate (noticed s) list.length (s.source 63) := by
  induction list generalizing s with
  | nil => exact ⟨rfl, rfl⟩
  | cons i rest ih =>
    obtain ⟨hfaults, hnotice⟩ := ih (storeFault (.overflow i) s)
    have hnoticed : noticed (storeFault (.overflow i) s) = noticed s := funext fun r =>
      noticed_congr (by simp [State.coveredBy, State.sourceTicket]) (by simp) r
    constructor
    · rw [storeOverflows, hfaults, storeFault_faults, storeFault_now, store_eq_stored]
      rfl
    · rw [storeOverflows, hnotice, hnoticed, storeFault_source_self]
      rfl

/-! ## The accepted edge -/

/-- R30, R31: the line after its level is accepted. -/
def acceptedLine (l : LineId) (level : Bool) (s : State) : State :=
  s.setLine l { s.line l with rawLevel := level, acceptedLevel := level, settleDeadline := none }

theorem mem_receivers {s : State} {l : LineId} {i : SourceId} :
    i ∈ receivers s l ↔ kindOf i = .watch ∧ (s.source i).config.line = l := by
  simp [receivers, allSources]

theorem nodup_receivers (s : State) (l : LineId) : (receivers s l).Nodup := (List.nodup_finRange 64).filter _

theorem receivers_filter_overflows (s : State) (l : LineId) (b : Bool) :
    (receivers s l).filter (overflows s l b) = allSources.filter (overflows s l b) := by
  rw [receivers, List.filter_filter]
  refine List.filter_congr fun i _ => ?_
  simp only [overflows]
  cases kindOf i == .watch <;> cases (s.source i).config.line == l <;> simp

theorem edgeTaken_of_not_receiver {s t : State} {l : LineId} {b : Bool} {i : SourceId} (hi : i ∉ receivers s l) :
    edgeTaken s t l b i = s.source i := by
  rw [mem_receivers] at hi
  exact if_neg fun ⟨hkind, hline, _⟩ => hi ⟨hkind, hline⟩

/-- R32: every watch source of the line takes the edge, and no other source does. -/
theorem reportTo_receivers_source (s : State) (l : LineId) (b : Bool) (i : SourceId) :
    (reportTo b (receivers s l) s).1.source i = edgeTaken s s l b i := by
  by_cases hi : i ∈ receivers s l
  · obtain ⟨hsources, -⟩ := reportTo_eq (b := b) (nodup_receivers s l) fun _ => mem_receivers.mp
    exact hsources i hi
  · rw [reportTo_other _ _ _ hi, edgeTaken_of_not_receiver hi]

/-- The stores after the report, on a state `x` in which sources other than S63 alone differ from `s`. -/
theorem storeOverflows_reported {s x : State} (hx : x = { s with sources := x.sources, drawn := x.drawn })
    (hself : x.source 63 = s.source 63) (lost : List SourceId) :
    (storeOverflows lost x).faults = lost.foldl (fun q i => stored q s.now (.overflow i)) s.faults ∧
      (storeOverflows lost x).source 63 = Nat.iterate (noticed s) lost.length (s.source 63) := by
  obtain ⟨hfaults, hsource⟩ := storeOverflows_eq lost x
  have hnotice : noticed x = noticed s := funext fun r => by
    rw [hx]
    exact noticed_congr rfl (fun _ => rfl) r
  rw [hsource, hfaults, hnotice, hself, hx]
  exact ⟨rfl, rfl⟩

theorem notice_not_mem_receivers (s : State) (l : LineId) : (63 : SourceId) ∉ receivers s l := by
  rw [mem_receivers]
  rintro ⟨hkind, -⟩
  exact absurd hkind (by decide)

/-- R32 on state `s`, the level already accepted. -/
theorem reportEdge_eq (s : State) (l : LineId) (b : Bool) :
    (∀ i, i ≠ 63 → (reportEdge l b s).source i = edgeTaken s s l b i) ∧
      ∃ lost : List SourceId, lost.Perm (allSources.filter (overflows s l b)) ∧
        (reportEdge l b s).faults = lost.foldl (fun q i => stored q s.now (.overflow i)) s.faults ∧
        (reportEdge l b s).source 63 = Nat.iterate (noticed s) lost.length (s.source 63) := by
  obtain ⟨-, hlost⟩ := reportTo_eq (b := b) (nodup_receivers s l) fun _ => mem_receivers.mp
  refine ⟨fun i hi => ?_, freeOrder (reportTo b (receivers s l) s).1.drawn (reportTo b (receivers s l) s).2, ?_,
    storeOverflows_reported ?_ ?_ _⟩
  · exact (storeOverflows_other _ _ (Ne.symm hi)).trans (reportTo_receivers_source s l b i)
  · exact (freeOrder_perm _ _).trans (by rw [hlost, receivers_filter_overflows])
  · rw [reportTo_frame]
    rfl
  · exact reportTo_other _ _ _ (notice_not_mem_receivers s l)

theorem acceptEdge_eq (l : LineId) (level : Bool) (s : State) :
    acceptEdge l level s = recomputeAtn (reportEdge l level (acceptedLine l level s)) := rfl

/-- The accepted edge, as the statement has it. -/
theorem edgeAccepted_acceptEdge (s : State) (l : LineId) (level : Bool) :
    EdgeAccepted s (acceptEdge l level s) l level := by
  obtain ⟨hsources, lost, hperm, hfaults, hnotice⟩ := reportEdge_eq (acceptedLine l level s) l level
  have hoverflows : overflows (acceptedLine l level s) l level = overflows s l level :=
    funext fun i => overflows_congr rfl rfl l level
  have hnoticed : noticed (acceptedLine l level s) = noticed s := funext fun r => noticed_congr rfl (fun _ => rfl) r
  refine ⟨acceptEdge_frame s l level, ?_, fun j hj => ?_, fun i hi => ?_, ⟨lost, ?_, ?_, ?_⟩, atnShown_recomputeAtn _⟩
  · rw [acceptEdge_eq, recomputeAtn_line, reportEdge_line]
    exact State.setLine_line_self ..
  · rw [acceptEdge_eq, recomputeAtn_line, reportEdge_line]
    exact State.setLine_line_ne _ _ _ _ hj.symm
  · rw [acceptEdge_eq, recomputeAtn_source, hsources i hi]
    exact edgeTaken_congr (s := s) (t := acceptedLine l level s) rfl rfl (fun _ => rfl) (by simp) (by simp) l level
  · rwa [← hoverflows]
  · rw [acceptEdge_eq, recomputeAtn_faults, hfaults]
    rfl
  · rw [acceptEdge_eq, recomputeAtn_source, hnotice, hnoticed]
    rfl

/-- R30: without a settle time the level is accepted at once. -/
theorem rawChange_of_no_settling {s : State} {l : LineId} (level : Bool) (hsteady : (s.line l).settleDeadline = none)
    (htime : (s.line l).settleUs = 0) : rawChange l level s = acceptEdge l level s := by
  simp [rawChange, hsteady, htime]

/-- Settles O47: both commands accept the edge. -/
theorem acceptedEdgesReachEveryWatchSource : Obligations.AcceptedEdgesReachEveryWatchSource := by
  refine ⟨fun s l level hsampled hlevel hsteady htime => ?_, fun s l d hdeadline hd => ?_⟩
  · refine ⟨_, ?_, edgeAccepted_acceptEdge s l level⟩
    rw [exec_rawChange_of_change hsampled hlevel, rawChange_of_no_settling level hsteady htime]
  · exact ⟨_, if_pos (settleDue_iff.mpr ⟨d, hdeadline, hd⟩), edgeAccepted_acceptEdge s l _⟩

end Sys2Proof.Proofs
end

section
/-! PROOFS. Host release (R117 to R121, R156): the tickets of the host end slot by slot, so each source takes at most
one of them back (O41). -/

namespace Sys2Proof.Proofs

open Sys2Proof.Machine Sys2Proof.Stated Sys2Proof.Safety

/-! ## One ticket taken back -/

/-- R118: the record of a source after it takes back the work of ticket `tk`, before any level check. -/
def takenBack (tk : Ticket) (r : Source) : Source :=
  if r.state = .armed then releaseWork tk r else discardWork tk.host r

theorem endReleased_source (k : SlotId) (tk : Ticket) (s : State) (i : SourceId) :
    (endReleased k tk s).source i = if tk.source = i then takenBack tk (s.source i) else s.source i := by
  have hwrites (r : Source) : ((freeSlot k s).setSource tk.source r).source i =
      if tk.source = i then r else s.source i := State.setSource_source ..
  unfold endReleased takenBack
  dsimp only
  split
  · next harmed =>
    rw [hwrites]
    split
    · next hi => subst hi; rw [freeSlot_source] at harmed ⊢; rw [if_pos harmed]
    · rfl
  · next hout =>
    rw [hwrites]
    split
    · next hi => subst hi; rw [freeSlot_source] at hout ⊢; rw [if_neg hout]
    · rfl

/-- Slot `k` holds ticket `tk`, which is `h`'s and of source `i`. -/
structure HeldAt (s : State) (h : HostId) (i : SourceId) (k : SlotId) (tk : Ticket) : Prop where
  slot : (s.slot k).ticket = some tk
  host : tk.host = h
  source : tk.source = i

theorem releaseSlot_source_of_held {s : State} {h : HostId} {i : SourceId} {k : SlotId} {tk : Ticket}
    (hheld : HeldAt s h i k tk) : (releaseSlot h k s).source i = takenBack tk (s.source i) := by
  obtain ⟨hslot, hhost, hsource⟩ := hheld
  simp only [releaseSlot, hslot, hhost, if_true, endReleased_source, hsource]

theorem releaseSlot_source_of_not_held {s : State} {h : HostId} {i : SourceId} {k : SlotId}
    (hnot : ∀ tk, ¬ HeldAt s h i k tk) : (releaseSlot h k s).source i = s.source i := by
  unfold releaseSlot
  split
  · next tk hslot =>
    split
    · next hhost =>
      rw [endReleased_source, if_neg fun hsource => hnot tk ⟨hslot, hhost, hsource⟩]
    · rfl
  · rfl

/-- A slot holds after a release what it held before it. -/
theorem heldAt_of_releaseSlot {s : State} {h : HostId} {i : SourceId} {j k : SlotId} {tk : Ticket}
    (hheld : HeldAt (releaseSlot h j s) h i k tk) : HeldAt s h i k tk := by
  obtain ⟨hslot, hhost, hsource⟩ := hheld
  rw [releaseSlot_slot] at hslot
  split at hslot
  · cases hslot
  · exact ⟨hslot, hhost, hsource⟩

theorem heldAt_releaseSlot {s : State} {h : HostId} {i : SourceId} {j k : SlotId} {tk : Ticket}
    (hheld : HeldAt s h i k tk) (hjk : j ≠ k) : HeldAt (releaseSlot h j s) h i k tk := by
  obtain ⟨hslot, hhost, hsource⟩ := hheld
  refine ⟨?_, hhost, hsource⟩
  rw [releaseSlot_slot, if_neg fun hc => hjk hc.1, hslot]

/-! ## Every ticket of the host -/

theorem foldl_releaseSlot_source_of_not_held {h : HostId} {i : SourceId} {l : List SlotId} {s : State}
    (hnot : ∀ k ∈ l, ∀ tk, ¬ HeldAt s h i k tk) :
    (l.foldl (fun x k => releaseSlot h k x) s).source i = s.source i := by
  induction l generalizing s with
  | nil => rfl
  | cons j rest ih =>
    obtain ⟨hj, hrest⟩ := List.forall_mem_cons.mp hnot
    rw [List.foldl_cons, ih fun k hk tk hheld => hrest k hk tk (heldAt_of_releaseSlot hheld),
      releaseSlot_source_of_not_held hj]

/-- The one ticket that `h` holds of source `i` is taken back once. -/
theorem foldl_releaseSlot_source_of_held {h : HostId} {i : SourceId} {l : List SlotId} (hl : l.Nodup) {s : State}
    {k : SlotId} {tk : Ticket} (hk : k ∈ l) (hheld : HeldAt s h i k tk)
    (honly : ∀ j u, HeldAt s h i j u → j = k) :
    (l.foldl (fun x k => releaseSlot h k x) s).source i = takenBack tk (s.source i) := by
  induction l generalizing s with
  | nil => cases hk
  | cons j rest ih =>
    obtain ⟨hj, hrest⟩ := List.nodup_cons.mp hl
    rw [List.foldl_cons]
    by_cases hjk : j = k
    · subst hjk
      rw [foldl_releaseSlot_source_of_not_held fun x hx u hu => ?_, releaseSlot_source_of_held hheld]
      exact hj (honly x u (heldAt_of_releaseSlot hu) ▸ hx)
    · have hkrest : k ∈ rest := (List.mem_cons.mp hk).resolve_left (Ne.symm hjk)
      rw [ih hrest hkrest (heldAt_releaseSlot hheld hjk) fun x u hu => honly x u (heldAt_of_releaseSlot hu),
        releaseSlot_source_of_not_held fun u hu => hjk (honly j u hu)]

/-! ## The live ticket that the host holds of a source -/

theorem heldAt_of_heldTicket {s : State} {h : HostId} {i : SourceId} {tk : Ticket} (htk : heldTicket s h i = some tk) :
    ∃ k, HeldAt s h i k tk := by
  obtain ⟨k, hk⟩ := mem_liveTickets.mp (List.mem_of_find?_eq_some htk)
  have hthis := List.find?_some htk
  rw [Bool.and_eq_true, beq_iff_eq, beq_iff_eq] at hthis
  obtain ⟨hsource, hhost⟩ := hthis
  exact ⟨k, hk, hhost, hsource⟩

theorem not_heldAt_of_heldTicket {s : State} {h : HostId} {i : SourceId} (hnone : heldTicket s h i = none) (k : SlotId)
    (tk : Ticket) : ¬ HeldAt s h i k tk := fun ⟨hslot, hhost, hsource⟩ => by
  have hno := List.find?_eq_none.mp hnone tk (mem_liveTickets.mpr ⟨k, hslot⟩)
  simp [hhost, hsource] at hno

section Unique

variable {s : State} (hunique : TicketsUnique s)
include hunique

theorem releaseTickets_source_of_held {h : HostId} {i : SourceId} {k : SlotId} {tk : Ticket}
    (hheld : HeldAt s h i k tk) : (releaseTickets h s).source i = takenBack tk (s.source i) := by
  refine foldl_releaseSlot_source_of_held (List.nodup_finRange 32) (List.mem_finRange k) hheld fun j u hu => ?_
  exact hunique j k u hu.slot tk hheld.slot (hu.source.trans hheld.source.symm)
    (.inr (hu.host.trans hheld.host.symm))

/-- R69: `h` holds at most one ticket of each source. -/
theorem nodup_sources_of_host (h : HostId) : ((s.ticketsOf h).map Ticket.source).Nodup := by
  rw [List.nodup_iff_pairwise_ne, List.pairwise_map, State.ticketsOf, List.pairwise_filter, State.liveTickets,
    List.pairwise_filterMap]
  refine (List.nodup_finRange 32).imp fun {k j} hkj t ht u hu hth huh hsame => hkj ?_
  rw [beq_iff_eq] at hth huh
  exact hunique k j t ht u hu hsame (.inr (hth.trans huh.symm))

/-- R118: a ONE-mode source whose ticket `h` held has no live ticket after the release. -/
theorem not_live_of_held {h : HostId} {i : SourceId} {k : SlotId} {tk : Ticket} (hheld : HeldAt s h i k tk)
    (hmode : (s.source i).config.mode = .one) :
    ((releaseTickets h s).liveTickets.any fun u => u.source == i) = false := by
  rw [List.any_eq_false]
  intro u hu hsource
  rw [beq_iff_eq] at hsource
  obtain ⟨j, hj⟩ := mem_liveTickets.mp hu
  have hhost := host_ne_of_releaseTickets j u hj
  rw [releaseTickets_slot] at hj
  split at hj
  · cases hj
  obtain ⟨hslot, hown, rfl⟩ := hheld
  obtain rfl : j = k := (hunique k j tk hslot u hj hsource.symm (.inl hmode)).symm
  cases hslot.symm.trans hj
  exact hhost hown

end Unique

/-! ## The record that the release leaves -/

/-- R116, R119: the record with nothing owed to `h`. -/
def owedCleared (h : HostId) (r : Source) : Source :=
  if r.config.mode = .each ∧ r.markerOf h = .owed then r.setMarker h .clear else r

theorem takenBack_one {tk : Ticket} {r : Source} (hmode : r.config.mode = .one) :
    takenBack tk r = if r.state = .armed then returned tk r else r := by
  simp only [takenBack, releaseWork, discardWork, hmode, returnWork_eq_returned]

theorem takenBack_each {tk : Ticket} {h : HostId} {r : Source} (hmode : r.config.mode = .each) (hown : tk.host = h) :
    takenBack tk r = { r with marker := r.marker.set h .clear } := by
  subst hown
  simp only [takenBack, releaseWork, discardWork, hmode]
  split <;> rfl

theorem owedCleared_of_one {h : HostId} {r : Source} (hmode : r.config.mode = .one) : owedCleared h r = r :=
  if_neg fun hc => by rw [hmode] at hc; cases hc.1

theorem owedCleared_of_clear {h : HostId} {r : Source} (hclear : r.markerOf h = .clear) : owedCleared h r = r :=
  if_neg fun hc => by rw [hclear] at hc; cases hc.2

theorem checked_of_not_armed (s : State) (live : Bool) (i : SourceId) {r : Source} (hstate : r.state ≠ .armed) :
    checked s live i r = r := if_neg fun hc => hstate hc.1

theorem checked_each (s : State) (live : Bool) (i : SourceId) {r : Source} (hmode : r.config.mode = .each) :
    checked s live i r = checked s false i r := by
  simp only [checked, hmode]

/-- R118, R119: the ticket's work, the markers owed to `h` and the level check, in the statement's words. -/
theorem checked_takenBack {s t : State} {h : HostId} {i : SourceId} {tk : Ticket} {live : Bool}
    (htk : heldTicket s h i = some tk) (hown : tk.host = h)
    (hlive : (s.source i).config.mode = .one → live = false) :
    checked t live i (owedCleared h (takenBack tk (s.source i))) = released s t h i := by
  simp only [released, htk]
  cases hmode : (s.source i).config.mode with
  | one =>
    rw [hlive hmode, takenBack_one hmode]
    split
    · rw [owedCleared_of_one (by rw [returned_config]; exact hmode)]
    · next hstate => rw [owedCleared_of_one hmode, checked_of_not_armed _ _ _ hstate]
  | each =>
    rw [takenBack_each hmode hown, owedCleared_of_clear (by simp [Source.markerOf])]
    exact checked_each _ _ _ hmode

theorem released_of_not_held {s t : State} {h : HostId} {i : SourceId} (hnone : heldTicket s h i = none) :
    released s t h i = owedCleared h (s.source i) := by
  simp only [released, hnone]
  rfl

theorem released_congr {t u : State} (hlevel : ∀ l, (u.line l).acceptedLevel = (t.line l).acceptedLevel)
    (hattached : ∀ x, u.attached x = t.attached x) (s : State) (h : HostId) (i : SourceId) :
    released s u h i = released s t h i := by
  simp only [released, checked_congr hlevel hattached]

/-! ## The release -/

/-- The state that the level checks of a release read (R118). -/
def dismissed (h : HostId) (s : State) : State :=
  (((releaseSession h (clearOwedTo h (releaseTickets h s))).setHost h HostRec.reset).setWaiting h none).setPort h
    ((releaseSession h (clearOwedTo h (releaseTickets h s))).port h).goDown

theorem dismissed_source (h : HostId) (s : State) (i : SourceId) :
    (dismissed h s).source i = owedCleared h ((releaseTickets h s).source i) := by
  simp only [dismissed, State.setPort_source, State.setWaiting_source, State.setHost_source, releaseSession_source,
    clearOwedTo_source]
  rfl

theorem dismissed_liveTickets (h : HostId) (s : State) :
    (dismissed h s).liveTickets = (releaseTickets h s).liveTickets := by
  simp [dismissed]

theorem releaseChecks_eq (tickets : List Ticket) (s : State) :
    releaseChecks tickets s = (tickets.map Ticket.source).foldl (fun x i => levelCheck i x) s := by
  rw [List.foldl_map, releaseChecks]

theorem mem_sources_of_held {s : State} {h : HostId} {i : SourceId} {k : SlotId} {tk : Ticket}
    (hheld : HeldAt s h i k tk) : i ∈ (s.ticketsOf h).map Ticket.source :=
  List.mem_map.mpr ⟨tk, List.mem_filter.mpr ⟨mem_liveTickets.mpr ⟨k, hheld.slot⟩, by simp [hheld.host]⟩, hheld.source⟩

theorem not_mem_sources_of_not_held {s : State} {h : HostId} {i : SourceId} (hnot : ∀ k tk, ¬ HeldAt s h i k tk) :
    i ∉ (s.ticketsOf h).map Ticket.source := by
  rw [List.mem_map]
  rintro ⟨tk, htk, hsource⟩
  obtain ⟨hlive, hhost⟩ := List.mem_filter.mp htk
  obtain ⟨k, hk⟩ := mem_liveTickets.mp hlive
  exact hnot k tk ⟨hk, by simpa using hhost, hsource⟩

/-- R118, R119: what the release leaves of each source, before any notice. -/
theorem releaseChecks_source {s : State} (hunique : TicketsUnique s) (h : HostId) (i : SourceId) :
    (releaseChecks (s.ticketsOf h) (dismissed h s)).source i = released s (dismissed h s) h i := by
  rw [releaseChecks_eq, foldl_levelCheck_source (nodup_sources_of_host hunique h), dismissed_source,
    dismissed_liveTickets]
  cases htk : heldTicket s h i with
  | none =>
    have hnot := not_heldAt_of_heldTicket htk
    rw [if_neg (not_mem_sources_of_not_held hnot), released_of_not_held htk, releaseTickets,
      foldl_releaseSlot_source_of_not_held fun k _ => hnot k]
  | some tk =>
    obtain ⟨k, hheld⟩ := heldAt_of_heldTicket htk
    rw [if_pos (mem_sources_of_held hheld), releaseTickets_source_of_held hunique hheld,
      checked_takenBack htk hheld.host (not_live_of_held hunique hheld)]

/-- R121: the record of the loss, where the host held something. -/
def lossNoted (h : HostId) (s x : State) : State :=
  if s.ticketsOf h ≠ [] ∨ s.edit.holder = some h then
    storeFault (.hostLost h (s.ticketsOf h).length (s.edit.holder == some h)) x
  else x

theorem release_eq (h : HostId) (s : State) :
    release h s = recomputeAtn (lossNoted h s (releaseChecks (s.ticketsOf h) (dismissed h s))) := by
  simp only [release, lossNoted, beq_iff_eq, dismissed]

section Left

variable (h : HostId) (s : State)

theorem release_acceptedLevel (l : LineId) :
    ((dismissed h s).line l).acceptedLevel = ((release h s).line l).acceptedLevel := by
  rw [release_frame]
  simp [dismissed, State.line]

theorem release_attached (x : HostId) : (dismissed h s).attached x = (release h s).attached x := by
  have hhost := congrArg HostRec.attached (release_host h s x)
  rw [State.attached, State.attached, hhost]
  simp [dismissed, State.setHost_host]

theorem releaseChecks_dismissed_attached (x : HostId) :
    (releaseChecks (s.ticketsOf h) (dismissed h s)).attached x = (release h s).attached x :=
  (Machine.releaseChecks_attached ..).trans (release_attached h s x)

theorem releaseChecks_dismissed_coveredBy (i : SourceId) :
    (releaseChecks (s.ticketsOf h) (dismissed h s)).coveredBy i = (release h s).coveredBy i := by
  have htickets : (release h s).liveTickets = (releaseChecks (s.ticketsOf h) (dismissed h s)).liveTickets := by
    rw [release_eq, recomputeAtn_liveTickets, lossNoted]
    split
    · exact storeFault_liveTickets ..
    · rfl
  simp only [State.coveredBy, State.sourceTicket, htickets]

theorem releaseChecks_dismissed_faults : (releaseChecks (s.ticketsOf h) (dismissed h s)).faults = s.faults := by
  simp [dismissed]

theorem releaseChecks_dismissed_now : (releaseChecks (s.ticketsOf h) (dismissed h s)).now = s.now := by
  simp [dismissed]

end Left

/-- Settles O41: the tickets, markers and session are taken back, then the one store, if any, notifies S63. -/
theorem hostReleaseTakesEverythingBack : Obligations.HostReleaseTakesEverythingBack := by
  intro s h hunique hup
  have hreleased (i : SourceId) :
      (releaseChecks (s.ticketsOf h) (dismissed h s)).source i = released s (release h s) h i :=
    (releaseChecks_source hunique h i).trans
      (released_congr (release_acceptedLevel h s) (release_attached h s) s h i)
  refine ⟨release h s, if_neg hup, release_frame h s, fun k => ?_, ?_, fun i hi => ?_, ?_, fun x hx => ?_,
    release_edit h s, ?_, fun x hx => ?_, ?_, fun x hx => ?_, ?_⟩
  · rw [slot_of_slots_eq (release_slots h s), releaseTickets_slot]
  · have hfaults : (release h s).faults = (lossNoted h s (releaseChecks (s.ticketsOf h) (dismissed h s))).faults := by
      rw [release_eq, recomputeAtn_faults]
    have hsource : (release h s).source 63 =
        (lossNoted h s (releaseChecks (s.ticketsOf h) (dismissed h s))).source 63 := by
      rw [release_eq, recomputeAtn_source]
    rw [hfaults, hsource, lossNoted]
    split
    · rw [storeFault_faults, store_eq_stored, releaseChecks_dismissed_faults, releaseChecks_dismissed_now,
        storeFault_source_self]
      refine ⟨rfl, ?_⟩
      rw [hreleased]
      exact noticed_congr (releaseChecks_dismissed_coveredBy h s 63) (releaseChecks_dismissed_attached h s) _
    · exact ⟨releaseChecks_dismissed_faults h s, hreleased 63⟩
  · rw [← hreleased, release_eq, recomputeAtn_source, lossNoted]
    split
    · exact storeFault_other _ _ (Ne.symm hi)
    · rfl
  · rw [release_host, State.setHost_host_self]
    rfl
  · rw [release_host, State.setHost_host_ne _ _ _ _ hx.symm]
  · rw [release_waitingClaim, State.setWaiting_waitingClaim_self]
  · rw [release_waitingClaim, State.setWaiting_waitingClaim_ne _ _ _ _ hx.symm]
  · rw [release_port, State.setPort_port_self]
    rfl
  · rw [release_port, State.setPort_port_ne _ _ _ _ hx.symm]
  · rw [release_eq]
    exact atnShown_recomputeAtn _

end Sys2Proof.Proofs
end
